-- ==== Sys2Proof/Word.lean ====
section
/-! DEFINITION. The data the TP-Redes CORE works on (spec/00_scope.md R8, R9): bytes and byte sequences. No value of this
hardware is signed, and no address is computed: a byte store is a sequence read by position (spec/20_memory.md R40). -/

namespace Sys2Proof

/-- An 8-bit byte, the `u8` of R8; bit 0 is the least significant bit. -/
abbrev Byte := BitVec 8

/-- A finite sequence of bytes, index 0 first: the `Bytes` of R9. -/
abbrev Bytes := List Byte

end Sys2Proof
end

