-- ==== Sys2Proof/Config.lean ====
section
/-! DEFINITION. The parameters of the hardware (spec/00_scope.md R7): the constants that the wire layout fixes, and the four
configuration arguments that a model takes (`SYNC`, `RETRY_CEILING`, `RXBUF_CAP`, `DELIVERY_CAP`), with the values R7 gives as
their defaults. Nothing here is a free value: no rule reads a value the spec leaves unspecified (R211). -/

namespace Sys2Proof

/-- `HEADER_LEN` (R7, R60): the frame header's length in bytes. -/
def headerLen : Nat := 14

/-- `MAX_PAYLOAD` (R7, R65): the largest payload of a frame in bytes. -/
def maxPayload : Nat := 4096

/-- `MAX_FRAME` (R7): the largest frame in bytes. -/
def maxFrame : Nat := headerLen + maxPayload

/-- The configuration arguments of R7, fixed when the block is instantiated ("configuration registers are hardwired at
instantiation", R25). A capacity of `none` is R7's "unbounded" (notes/assumptions/3.md). -/
structure Config where
  /-- `SYNC` (R7, D3): the marker constant of both sync fields. -/
  sync : BitVec 32 := 0xDCC023C2
  /-- `RETRY_CEILING` (R7, D19): how often one frame is retransmitted. Status register 17 shows it in 8 bits (R25). -/
  retryCeiling : BitVec 8 := 16
  /-- `RXBUF_CAP` (R7, D12): capacity of `receive_buffer` in bytes. -/
  rxbufCap : Option Nat := none
  /-- `DELIVERY_CAP` (R7, D13): capacity of `delivery_queue` in items. -/
  deliveryCap : Option Nat := none
deriving DecidableEq, Repr

/-- The configuration with R7's default values. -/
def Config.default : Config := { }

/-- What R7 and R15 ask of a configuration: `RETRY_CEILING + 1` fits the 8-bit retry counter, `RXBUF_CAP` is at least
`MAX_FRAME`, `DELIVERY_CAP` is at least 2. -/
def Config.wf (cfg : Config) : Bool :=
  decide (cfg.retryCeiling.toNat < 255) &&
  (match cfg.rxbufCap with
    | none => true
    | some c => decide (maxFrame ≤ c)) &&
  (match cfg.deliveryCap with
    | none => true
    | some c => decide (2 ≤ c))

end Sys2Proof
end

