-- ==== Sys2Proof/Machine/Operands.lean ====
section
/-! DEFINITION. The operand forms: multi-byte fields of a byte sequence, all big-endian (spec/00_scope.md R9,
spec/20_memory.md R42). -/

namespace Sys2Proof.Machine

/-- Byte `off` of a byte sequence; a position outside it reads 0, and no rule reads one (DESIGN CHOICE,
notes/assumptions/9.md). -/
def byteAt (b : Bytes) (off : Nat) : Byte := b.getD off 0

/-- `BE16(b, off) = b[off] * 256 + b[off+1]` (R9). -/
def be16At (b : Bytes) (off : Nat) : BitVec 16 := byteAt b off ++ byteAt b (off + 1)

/-- `BE32(b, off)`, four bytes, the most significant first (R9). -/
def be32At (b : Bytes) (off : Nat) : BitVec 32 := be16At b off ++ be16At b (off + 2)

/-- `be16(v)`: two bytes, the most significant first (R9). -/
def be16 (v : BitVec 16) : Bytes := [v.extractLsb' 8 8, v.extractLsb' 0 8]

/-- `be32(v)`: four bytes, the most significant first (R9). -/
def be32 (v : BitVec 32) : Bytes := be16 (v.extractLsb' 16 16) ++ be16 (v.extractLsb' 0 16)

/-- `MemWrite(f, off, 2, v)` (R9): the two bytes at `off` replaced by `be16(v)`. -/
def memWrite16 (f : Bytes) (off : Nat) (v : BitVec 16) : Bytes := f.take off ++ be16 v ++ f.drop (off + 2)

/-- A natural number as `n` bytes, the most significant first: how the opcode table numbers the bits of a frame header
(R61: the first byte transmitted is bits 111:104, byte 13 is bits 7:0). -/
def bytesOfNat : Nat → Nat → Bytes
  | 0, _ => []
  | n + 1, w => BitVec.ofNat 8 (w / 256 ^ n) :: bytesOfNat n w

end Sys2Proof.Machine
end

