-- ==== Sys2Proof/Machine/Checksum.lean ====
section
/-! DEFINITION. The Checksum Engine (spec/40_checksum.md): the 16-bit one's-complement Internet checksum, its streaming form
and the validation of a block that carries its checksum. -/

namespace Sys2Proof.Machine

/-- The sum of the block's big-endian 16-bit words as a natural number, a last odd byte being the high half of a word with a
zero low byte (R90, R91). -/
def wordSum : Bytes → Nat
  | [] => 0
  | [x] => x.toNat * 256
  | x :: y :: rest => (x.toNat * 256 + y.toNat) + wordSum rest

/-- `while S > 0xFFFF: S <- (S & 0xFFFF) + (S >> 16)` (R90, R92), with a bound on the number of folds that the loop never
reaches when it is at least the number of words summed (DEDUCED, notes/assumptions/13.md). -/
def foldCarry : Nat → Nat → Nat
  | 0, s => s
  | k + 1, s => if s ≤ 0xFFFF then s else foldCarry k (s % 0x10000 + s / 0x10000)

/-- `CKSUM(b)`: sum, fold, complement (R90 to R93). -/
def cksum (b : Bytes) : BitVec 16 := ~~~ (BitVec.ofNat 16 (foldCarry (b.length + 1) (wordSum b)))

/-- One step of the streaming form: add a word with end-around carry (R94). -/
def endAroundAdd (acc w : Nat) : Nat :=
  if acc + w > 0xFFFF then (acc + w) % 0x10000 + 1 else acc + w

/-- The accumulator of the streaming form over a block, from `acc` (R94). -/
def streamAcc : Nat → Bytes → Nat
  | acc, [] => acc
  | acc, [x] => endAroundAdd acc (x.toNat * 256)
  | acc, x :: y :: rest => streamAcc (endAroundAdd acc (x.toNat * 256 + y.toNat)) rest

/-- The streaming form of `CKSUM` (R94). -/
def cksumStream (b : Bytes) : BitVec 16 := ~~~ (BitVec.ofNat 16 (streamAcc 0 b))

/-- `CKVERIFY(block, off)`: the stored field equals the checksum of the block with the field zeroed, as 16-bit values (R95). -/
def ckverify (block : Bytes) (off : Nat) : Bool :=
  cksum (block.take off ++ [0, 0] ++ block.drop (off + 2)) == be16At block off

end Sys2Proof.Machine
end

