-- ==== Sys2Proof/Machine/Flags.lean ====
section
/-! DEFINITION. The flag bits of a frame (spec/30_encoding.md R66) and the classification of a received frame by them (R68).
The CORE has no arithmetic condition codes (spec/10_state.md R24); its one-bit state flags are fields of the Connection. -/

namespace Sys2Proof.Machine

/-- `FLAG_ACK`, bit 7 (R7, R66). PRESUMED, with the two masks below: which end of a byte bit 7 is comes from general knowledge
(R8, notes/assumptions/8.md). -/
def flagAck : Byte := 0x80

/-- `FLAG_END`, bit 6 (R7, R66). -/
def flagEnd : Byte := 0x40

/-- `FLAG_RST`, bit 5 (R7, R66). -/
def flagRst : Byte := 0x20

/-- Whether the flag bits of `mask` are set in `flags`: the test `(flags & mask) != 0` of R135. -/
def hasFlag (flags mask : Byte) : Bool := (flags &&& mask) != 0

/-- The four classes of received frames (R68). -/
inductive FrameClass where
  /-- `F.RST` -/
  | rst
  /-- `F.ACK` -/
  | ack
  /-- `F.DATA_END` -/
  | dataEnd
  /-- `F.DATA` -/
  | data
deriving DecidableEq, Repr

/-- The class of a received frame, by its flags byte alone, RST tested first, then ACK, then END (R68, R71, R135); bits 4 to 0
are ignored (R70). -/
def frameClass (flags : Byte) : FrameClass :=
  if hasFlag flags flagRst then .rst
  else if hasFlag flags flagAck then .ack
  else if hasFlag flags flagEnd then .dataEnd
  else .data

end Sys2Proof.Machine
end

