-- ==== Sys2Proof/Machine/Codec.lean ====
section
/-! DEFINITION. The Frame Codec (spec/41_frame_codec.md): `ENCODE` and `DECODE` as pure functions, and the four shapes of the
frames the CORE emits (spec/30_encoding.md R69). -/

namespace Sys2Proof.Machine

/-- `MARK`, the marker pair that opens every frame (R63). -/
def mark (sync : BitVec 32) : Bytes := be32 sync ++ be32 sync

/-- The bytes of a frame with its checksum field still zero (R100). -/
def unsealed (sync : BitVec 32) (id flags : Byte) (payload : Bytes) : Bytes :=
  mark sync ++ [0, 0] ++ be16 (BitVec.ofNat 16 payload.length) ++ [id, flags] ++ payload

/-- A frame's bytes: the checksum of the whole frame with the field zero, patched into the field (R64, R100). -/
def buildFrame (sync : BitVec 32) (id flags : Byte) (payload : Bytes) : Bytes :=
  memWrite16 (unsealed sync id flags payload) 8 (cksum (unsealed sync id flags payload))

/-- `ENCODE id flags payload` (R100); `none` is `Refused(PayloadTooLong)`, no bytes (R101). -/
def encodeFrame (sync : BitVec 32) (id flags : Byte) (payload : Bytes) : Option Bytes :=
  if payload.length > maxPayload then none else some (buildFrame sync id flags payload)

/-- The three kinds of `FramingError` (R102). -/
inductive FramingKind where
  /-- the declared length exceeds `MAX_PAYLOAD` (R104) -/
  | lengthOutOfRange
  /-- a sync field differs from `SYNC` (R105) -/
  | invalidSync
  /-- the checksum field differs from the recomputed value (R106) -/
  | checksumMismatch
deriving DecidableEq, Repr

/-- The result of `DECODE` (R102). -/
inductive DecodeResult where
  /-- a frame and the number of bytes it takes (R107) -/
  | frame (id flags : Byte) (payload : Bytes) (consumed : Nat)
  /-- more bytes are needed (R103, R104) -/
  | incomplete
  /-- the candidate at the front is no frame -/
  | framingError (kind : FramingKind)
deriving DecidableEq, Repr

/-- The declared payload length of the candidate at the front of `b`, `BE16(b, 10)` (R65, R104). -/
def declaredLength (b : Bytes) : Nat := (be16At b 10).toNat

/-- `DECODE b`: the tests of R103 to R107 in R102's order; the first that applies gives the result. -/
def decodeFrame (sync : BitVec 32) (b : Bytes) : DecodeResult :=
  if b.length < headerLen then .incomplete
  else if declaredLength b > maxPayload then .framingError .lengthOutOfRange
  else if b.length < headerLen + declaredLength b then .incomplete
  else if be32At b 0 ≠ sync ∨ be32At b 4 ≠ sync then .framingError .invalidSync
  else if ckverify (b.take (headerLen + declaredLength b)) 8 = false then .framingError .checksumMismatch
  else .frame (byteAt b 12) (byteAt b 13) ((b.drop headerLen).take (declaredLength b)) (headerLen + declaredLength b)

/-- The emitted data frame (R69, R132). -/
def dataFrame (sync : BitVec 32) (id : Byte) (payload : Bytes) : Bytes := buildFrame sync id 0x00 payload

/-- The emitted data frame with END (R69, R133). -/
def dataEndFrame (sync : BitVec 32) (id : Byte) (payload : Bytes) : Bytes := buildFrame sync id flagEnd payload

/-- The emitted ACK, `ENCODE(id, 0x80, [])` (R69, R142). -/
def ackFrame (sync : BitVec 32) (id : Byte) : Bytes := buildFrame sync id flagAck []

/-- The emitted RST, `ENCODE(0, 0x20, [])` (R69, R162). -/
def rstFrame (sync : BitVec 32) : Bytes := buildFrame sync 0x00 flagRst []

end Sys2Proof.Machine
end

