-- ==== Sys2Proof/Syntax.lean ====
section
/-! DEFINITION. The operations of the CORE as syntax: one constructor for each of the 24 rows of spec/opcode_table.json, and
the words that encode them (spec/30_encoding.md): an event word of 4 bits with typed operands beside it (R74), or the bytes of
a frame on the wire, received or emitted (R61). -/

namespace Sys2Proof

/-- The operations, in the table's order: the eleven events of R74, the five reserved event codes of R75, the four classes of
received frames of R68 and the four shapes of emitted frames of R69. -/
inductive Instr where
  /-- `CKSUM b` (R90) -/
  | cksum (b : Bytes)
  /-- `ENCODE id flags payload` (R100) -/
  | encodeFrame (id flags : Byte) (payload : Bytes)
  /-- `DECODE b` (R102) -/
  | decodeFrame (b : Bytes)
  /-- `SEND payload` (R130) -/
  | send (payload : Bytes)
  /-- `SEND.END payload` (R133) -/
  | sendEnd (payload : Bytes)
  /-- `RECEIVE` (R134) -/
  | receive
  /-- `RDSTAT n` (R172) -/
  | rdstat (n : Byte)
  /-- `RX_BYTES chunk` (R120) -/
  | rxBytes (chunk : Bytes)
  /-- `CH_CLOSE` (R168) -/
  | chClose
  /-- `TIMER_EXPIRE` (R160) -/
  | timerExpire
  /-- `RESET` (R171) -/
  | reset
  /-- reserved event code `0x0` (R75) -/
  | reserved0
  /-- reserved event code `0xB` (R75) -/
  | reservedB
  /-- reserved event code `0xC` (R75) -/
  | reservedC
  /-- reserved event code `0xD` (R75) -/
  | reservedD
  /-- reserved event code `0xE` (R75) -/
  | reservedE
  /-- `F.RST`: a received frame with RST set (R136) -/
  | fRst (id flags : Byte) (payload : Bytes)
  /-- `F.ACK`: a received frame with ACK set and RST clear (R137, R138) -/
  | fAck (id flags : Byte) (payload : Bytes)
  /-- `F.DATA_END`: a received data frame with END (R141) -/
  | fDataEnd (id flags : Byte) (payload : Bytes)
  /-- `F.DATA`: a received data frame without END (R140) -/
  | fData (id flags : Byte) (payload : Bytes)
  /-- `TX.DATA`: an emitted data frame (R132) -/
  | txData (id : Byte) (payload : Bytes)
  /-- `TX.DATA_END`: an emitted data frame with END (R133) -/
  | txDataEnd (id : Byte) (payload : Bytes)
  /-- `TX.ACK`: an emitted acknowledgement (R142) -/
  | txAck (id : Byte)
  /-- `TX.RST`: the emitted abort frame (R162) -/
  | txRst
deriving DecidableEq, Repr

/-- The operand lanes beside an event code: "operands travel beside it as typed values, not as packed bits" (R74). An event
uses the lanes R74 lists for it and ignores the others (DESIGN CHOICE, notes/assumptions/12.md). -/
structure Operands where
  /-- the `id` operand of `ENCODE` -/
  id : Byte := 0
  /-- the `flags` operand of `ENCODE` -/
  flags : Byte := 0
  /-- the `n` operand of `RDSTAT` -/
  n : Byte := 0
  /-- the byte-sequence operand (`b`, `payload` or `chunk`) -/
  bytes : Bytes := []
deriving DecidableEq, Repr

/-- An event as it is presented to the CORE: the event word `op[3:0]` and its operands (R74). -/
structure EventWord where
  /-- the 4-bit event code -/
  op : BitVec 4
  /-- the operands beside it -/
  args : Operands := { }
deriving DecidableEq, Repr

/-- The three formats of the opcode table: `CMD`, `FRAME_RX`, `FRAME_TX`. The bits of a received and of an emitted frame are
the same; which of the two a frame is, is a matter of the stream it stands on (R40). -/
inductive InstrWord where
  /-- an event word with its operands -/
  | cmd (e : EventWord)
  /-- the bytes of a frame on the RX stream -/
  | frameRx (bytes : Bytes)
  /-- the bytes of a frame on the TX stream -/
  | frameTx (bytes : Bytes)
deriving DecidableEq, Repr

end Sys2Proof
end

