-- ==== Sys2Proof/Decode.lean ====
section
/-! DEFINITION. From the words of spec/30_encoding.md to the operations they encode, and back. An event word always names an
operation: eleven codes are events (R74) and the other five are the reserved codes (R75). A frame is read by `DECODE`
(spec/41_frame_codec.md R102) and classified by its flags byte (R68); a frame on the TX stream is read as the emitted shape it
has (R69). -/

namespace Sys2Proof

open Sys2Proof.Machine

/-- Why a word is no operation. -/
inductive DecodeError where
  /-- the bytes end before the frame does: `Incomplete` (R103, R104) -/
  | incomplete
  /-- the bytes are no frame: `FramingError(kind)` (R73, R104 to R106) -/
  | framing (kind : FramingKind)
  /-- a frame on the TX stream that has none of the four shapes of R69 -/
  | notEmitted
deriving DecidableEq, Repr

/-- The operation that an event word names (R74, R75). The last case is the one code left, `0xF`. -/
def decodeEvent (e : EventWord) : Instr :=
  match e.op.toNat with
  | 0 => .reserved0
  | 1 => .cksum e.args.bytes
  | 2 => .encodeFrame e.args.id e.args.flags e.args.bytes
  | 3 => .decodeFrame e.args.bytes
  | 4 => .send e.args.bytes
  | 5 => .sendEnd e.args.bytes
  | 6 => .receive
  | 7 => .rdstat e.args.n
  | 8 => .rxBytes e.args.bytes
  | 9 => .chClose
  | 10 => .timerExpire
  | 11 => .reservedB
  | 12 => .reservedC
  | 13 => .reservedD
  | 14 => .reservedE
  | _ => .reset

/-- The operation a received frame is, by its class (R68). -/
def classify (id flags : Byte) (payload : Bytes) : Instr :=
  match frameClass flags with
  | .rst => .fRst id flags payload
  | .ack => .fAck id flags payload
  | .dataEnd => .fDataEnd id flags payload
  | .data => .fData id flags payload

/-- The frame at the front of a byte sequence on the RX stream (R68, R102). -/
def decodeRx (sync : BitVec 32) (b : Bytes) : Except DecodeError Instr :=
  match Machine.decodeFrame sync b with
  | .frame id flags payload _ => .ok (classify id flags payload)
  | .incomplete => .error .incomplete
  | .framingError kind => .error (.framing kind)

/-- The emitted shape that the fields of a frame have (R69). -/
def emittedShape (id flags : Byte) (payload : Bytes) : Option Instr :=
  if flags = 0x00 ∧ id.toNat ≤ 1 then some (.txData id payload)
  else if flags = flagEnd ∧ id.toNat ≤ 1 then some (.txDataEnd id payload)
  else if flags = flagAck ∧ payload = [] then some (.txAck id)
  else if flags = flagRst ∧ payload = [] ∧ id = 0 then some .txRst
  else none

/-- The frame at the front of a byte sequence on the TX stream (R69). -/
def decodeTx (sync : BitVec 32) (b : Bytes) : Except DecodeError Instr :=
  match Machine.decodeFrame sync b with
  | .frame id flags payload _ =>
    match emittedShape id flags payload with
    | some i => .ok i
    | none => .error .notEmitted
  | .incomplete => .error .incomplete
  | .framingError kind => .error (.framing kind)

/-- The decoder, total on every word of the three formats. -/
def decode (sync : BitVec 32) : InstrWord → Except DecodeError Instr
  | .cmd e => .ok (decodeEvent e)
  | .frameRx b => decodeRx sync b
  | .frameTx b => decodeTx sync b

/-- The encoder: the word of an operation, from the tables of R61, R68, R69 and R74. -/
def encode (sync : BitVec 32) : Instr → InstrWord
  | .cksum b => .cmd { op := 0x1, args := { bytes := b } }
  | .encodeFrame id flags payload => .cmd { op := 0x2, args := { id := id, flags := flags, bytes := payload } }
  | .decodeFrame b => .cmd { op := 0x3, args := { bytes := b } }
  | .send payload => .cmd { op := 0x4, args := { bytes := payload } }
  | .sendEnd payload => .cmd { op := 0x5, args := { bytes := payload } }
  | .receive => .cmd { op := 0x6 }
  | .rdstat n => .cmd { op := 0x7, args := { n := n } }
  | .rxBytes chunk => .cmd { op := 0x8, args := { bytes := chunk } }
  | .chClose => .cmd { op := 0x9 }
  | .timerExpire => .cmd { op := 0xA }
  | .reset => .cmd { op := 0xF }
  | .reserved0 => .cmd { op := 0x0 }
  | .reservedB => .cmd { op := 0xB }
  | .reservedC => .cmd { op := 0xC }
  | .reservedD => .cmd { op := 0xD }
  | .reservedE => .cmd { op := 0xE }
  | .fRst id flags payload => .frameRx (buildFrame sync id flags payload)
  | .fAck id flags payload => .frameRx (buildFrame sync id flags payload)
  | .fDataEnd id flags payload => .frameRx (buildFrame sync id flags payload)
  | .fData id flags payload => .frameRx (buildFrame sync id flags payload)
  | .txData id payload => .frameTx (dataFrame sync id payload)
  | .txDataEnd id payload => .frameTx (dataEndFrame sync id payload)
  | .txAck id => .frameTx (ackFrame sync id)
  | .txRst => .frameTx (rstFrame sync)

/-- The bytes of a frame whose bits the opcode table numbers (R61: the header is one big-endian number), operand bytes zero.
DESIGN CHOICE (notes/assumptions/5.md): the table leaves the checksum field open and its rows ask that it be correct, so a
field of zero, the table's unset field, is sealed with the checksum of the frame as `ENCODE` does. -/
def tableFrame (nbits w : Nat) : Bytes :=
  let header := bytesOfNat (nbits / 8) w
  let f := if declaredLength header > maxPayload then header else header ++ List.replicate (declaredLength header) 0
  if be16At f 8 = 0 then memWrite16 f 8 (cksum f) else f

/-- Whether a table row of `nbits` bits is an event word: `op[3:0]` in one byte (R74). -/
def isEventRow (nbits : Nat) : Bool := decide (nbits ≤ 8)

/-- The operation the decoder reads from a word whose bits are numbered as the opcode table numbers them. An event word has
four bits, so a wider number is none; a frame is read from the RX stream, the only stream the CORE reads
(notes/assumptions/5.md). -/
def decodeTableWord (nbits w : Nat) : Option Instr :=
  if isEventRow nbits then
    if w < 16 then (decode Config.default.sync (.cmd { op := BitVec.ofNat 4 w })).toOption else none
  else (decode Config.default.sync (.frameRx (tableFrame nbits w))).toOption

/-- The event that presents such a word to the CORE: the event word itself, or `RX_BYTES` with the frame's bytes. -/
def tableEvent (nbits w : Nat) : EventWord :=
  if isEventRow nbits then { op := BitVec.ofNat 4 w }
  else { op := 0x8, args := { bytes := tableFrame nbits w } }

end Sys2Proof
end

