-- ==== Sys2Proof/Machine/State.lean ====
section
/-! DEFINITION. The state of the machine as plain data: the Connection record `st` with the fields of spec/10_state.md R11 to
R22, the hardwired configuration (R25), and the model's own fields for the event interface (the events that the environment
presents, and the response given last). -/

namespace Sys2Proof.Machine

/-- `conn_state` (R11). -/
inductive ConnState where
  /-- `Idle`: no frame outstanding -/
  | idle
  /-- `AwaitingAck`: one data frame outstanding, the timer running -/
  | awaitingAck
  /-- `Closed`: terminal -/
  | closed
deriving DecidableEq, Repr

/-- Why a connection is `Closed`: the values of `close_cause` other than `None` (R20, R169). -/
inductive Cause where
  /-- `Normal`: the END exchange completed (R144) -/
  | normal
  /-- `PeerReset`: an RST frame arrived (R136) -/
  | peerReset
  /-- `RetriesExhausted`: the retry ceiling was exceeded (R162) -/
  | retriesExhausted
  /-- `ChannelClosed`: the channel was closed (R168) -/
  | channelClosed
deriving DecidableEq, Repr

/-- The fatal conditions that `fatal_pending` can hold (R20). -/
inductive Abort where
  /-- `PeerReset` -/
  | peerReset
  /-- `RetriesExhausted` -/
  | retriesExhausted
deriving DecidableEq, Repr

/-- What waits in `delivery_queue` (R18). -/
inductive Item where
  /-- `Payload(b)` -/
  | payload (b : Bytes)
  /-- `EndOfStream` -/
  | endOfStream
deriving DecidableEq, Repr

/-- The tags of `trace` (R22). -/
inductive Tag where
  | invalidSync
  | checksumMismatch
  | lengthOutOfRange
  | staleAck
  | duplicateFrame
  | accepted
  | ackMatched
  | peerReset
  | retriesExhausted
  | deliveryOverflow
deriving DecidableEq, Repr

/-- The Connection record `st` (R10): "the fields of rules R11 to R22 and nothing else". -/
structure Conn where
  /-- `conn_state` (R11) -/
  connState : ConnState
  /-- `next_send_id`, 8 bits (R12) -/
  nextSendId : Byte
  /-- `last_accepted_id`, a valid bit and 8 id bits (R13) -/
  lastAcceptedId : Option Byte
  /-- `outstanding_frame`, the encoded bytes as transmitted (R14) -/
  outstandingFrame : Option Bytes
  /-- `retry_count`, 8 bits (R15) -/
  retryCount : BitVec 8
  /-- `timer_armed`, which stands for `retransmit_deadline` (R16) -/
  timerArmed : Bool
  /-- `receive_buffer` (R17) -/
  receiveBuffer : Bytes
  /-- `delivery_queue` (R18) -/
  deliveryQueue : List Item
  /-- `end_sent` (R19) -/
  endSent : Bool
  /-- `end_acked` (R19) -/
  endAcked : Bool
  /-- `peer_end_received` (R19) -/
  peerEndReceived : Bool
  /-- `close_cause`; `none` is the spec's `None` (R20) -/
  closeCause : Option Cause
  /-- `fatal_pending` (R20) -/
  fatalPending : Option Abort
  /-- `tx_stream`: all bytes written to the channel since reset (R21) -/
  txStream : Bytes
  /-- `ch_close_req` (R21) -/
  chCloseReq : Bool
  /-- `trace`: the condition tags, the model bookkeeping of R22 -/
  trace : List Tag
deriving DecidableEq, Repr

/-- The reset value of every field of the Connection (R29, R210). -/
def Conn.reset : Conn where
  connState := .idle
  nextSendId := 0
  lastAcceptedId := none
  outstandingFrame := none
  retryCount := 0
  timerArmed := false
  receiveBuffer := []
  deliveryQueue := []
  endSent := false
  endAcked := false
  peerEndReceived := false
  closeCause := none
  fatalPending := none
  txStream := []
  chCloseReq := false
  trace := []

/-- The kinds of `Fatal(kind)` (R134, R190). -/
inductive FatalKind where
  /-- `PeerReset` (R187) -/
  | peerReset
  /-- `RetriesExhausted` (R186) -/
  | retriesExhausted
  /-- `ConnectionClosed` (R188) -/
  | connectionClosed
deriving DecidableEq, Repr

/-- The kinds of `Refused(kind)` (R75, R101). -/
inductive RefusedKind where
  /-- `PayloadTooLong` (R101, R131) -/
  | payloadTooLong
  /-- `IllegalCommand` (R75) -/
  | illegalCommand
deriving DecidableEq, Repr

/-- The responses of the events (R74, R76). -/
inductive Response where
  /-- `Accepted`, of `SEND` and `SEND.END` -/
  | accepted
  /-- `Payload(b)`, of `RECEIVE` -/
  | payload (b : Bytes)
  /-- `EndOfStream`, of `RECEIVE` -/
  | endOfStream
  /-- `Busy`, of `SEND` and `SEND.END` -/
  | busy
  /-- `Pending`, of `RECEIVE` -/
  | pending
  /-- `Fatal(kind)` -/
  | fatal (kind : FatalKind)
  /-- `Refused(kind)` -/
  | refused (kind : RefusedKind)
  /-- the `u16` of `CKSUM` -/
  | checksum (v : BitVec 16)
  /-- the bytes of `ENCODE` -/
  | encoded (b : Bytes)
  /-- the result of `DECODE` -/
  | decoded (r : DecodeResult)
  /-- the `u32` of `RDSTAT` -/
  | register (v : BitVec 32)
  /-- "accepted", of `RX_BYTES` -/
  | rxAccepted
  /-- "not accepted", of `RX_BYTES` -/
  | rxNotAccepted
deriving DecidableEq, Repr

/-- The state of the machine. -/
structure State where
  /-- the configuration, hardwired at instantiation and shown by status registers 16 to 18 (R7, R25) -/
  cfg : Config
  /-- the Connection record (R10) -/
  st : Conn
  /-- the model's own: the events the environment presents, as a list of arbitration slots, each the events presented at
  once (R50, R74, R192; DESIGN CHOICE, notes/assumptions/1.md) -/
  slots : List (List EventWord)
  /-- the model's own: the response given last (R74, R76; DESIGN CHOICE, notes/assumptions/2.md) -/
  response : Option Response
deriving DecidableEq, Repr

/-- The machine right after reset (R29, R210) with the default configuration (R7): no event presented, no response given
(DESIGN CHOICE, notes/assumptions/15.md). -/
def State.reset : State where
  cfg := Config.default
  st := Conn.reset
  slots := []
  response := none

/-- The reasons for which the machine stops with a fault. There is none: every condition of R180 is recorded or answered and
the CORE goes on (DEDUCED, notes/assumptions/11.md; "a condition is never an unwinding exception", R9), and `Closed` answers every later event (R167, R194). -/
inductive Fault where
deriving DecidableEq, Repr

/-- The reasons for which the machine refuses an operation. -/
inductive Refusal where
  /-- Raised by `exec` for a row of the opcode table that has no meaning yet. Safe: nothing can be proved of such a row. No
  arm raises it: every row has its meaning. -/
  | notModelled (mnemonic : String)
deriving DecidableEq, Repr

end Sys2Proof.Machine
end

