-- ==== Sys2Proof/Machine/Conditions.lean ====
section
/-! DEFINITION. The conditions and their codes (spec/60_exceptions.md R180), the status code and result tag of a response
(spec/30_encoding.md R76), and the trace tag of a framing error. -/

namespace Sys2Proof.Machine

/-- The conditions of R180. -/
inductive Condition where
  | invalidSync
  | checksumMismatch
  | framingIncomplete
  | staleAck
  | duplicateFrame
  | retriesExhausted
  | peerReset
  | connectionClosed
  | lengthOutOfRange
  | payloadTooLong
  | busy
  | pending
  | illegalCommand
  | deliveryOverflow
deriving DecidableEq, Repr

/-- The 4-bit code of a condition (R180); code 0 is success, code 15 is not used. -/
def Condition.code : Condition → BitVec 4
  | .invalidSync => 1
  | .checksumMismatch => 2
  | .framingIncomplete => 3
  | .staleAck => 4
  | .duplicateFrame => 5
  | .retriesExhausted => 6
  | .peerReset => 7
  | .connectionClosed => 8
  | .lengthOutOfRange => 9
  | .payloadTooLong => 10
  | .busy => 11
  | .pending => 12
  | .illegalCommand => 13
  | .deliveryOverflow => 14

/-- The condition of a framing error (R180: codes 1, 2, 9). -/
def FramingKind.condition : FramingKind → Condition
  | .lengthOutOfRange => .lengthOutOfRange
  | .invalidSync => .invalidSync
  | .checksumMismatch => .checksumMismatch

/-- The tag that `raise kind` appends to `trace` (R120, R22). -/
def FramingKind.tag : FramingKind → Tag
  | .lengthOutOfRange => .lengthOutOfRange
  | .invalidSync => .invalidSync
  | .checksumMismatch => .checksumMismatch

/-- The condition of a fatal kind (R180: codes 6, 7, 8). -/
def FatalKind.condition : FatalKind → Condition
  | .peerReset => .peerReset
  | .retriesExhausted => .retriesExhausted
  | .connectionClosed => .connectionClosed

/-- The condition of a refusal (R180: codes 10, 13). -/
def RefusedKind.condition : RefusedKind → Condition
  | .payloadTooLong => .payloadTooLong
  | .illegalCommand => .illegalCommand

/-- The kind of `Fatal(kind)` that `RECEIVE` answers for a pending fatal condition (R134). -/
def Abort.fatalKind : Abort → FatalKind
  | .peerReset => .peerReset
  | .retriesExhausted => .retriesExhausted

/-- What `RECEIVE` answers with an item of the queue (R134). -/
def Item.response : Item → Response
  | .payload b => .payload b
  | .endOfStream => .endOfStream

/-- The condition that a response reports, `none` for success (R76). The channel's "not accepted" is no condition of R180 and
has no status code in the spec (notes/assumptions/2.md). -/
def Response.condition : Response → Option Condition
  | .busy => some .busy
  | .pending => some .pending
  | .fatal kind => some kind.condition
  | .refused kind => some kind.condition
  | .decoded .incomplete => some .framingIncomplete
  | .decoded (.framingError kind) => some kind.condition
  | .decoded (.frame _ _ _ _) => none
  | .accepted => none
  | .payload _ => none
  | .endOfStream => none
  | .checksum _ => none
  | .encoded _ => none
  | .register _ => none
  | .rxAccepted => none
  | .rxNotAccepted => none

/-- The 4-bit status of a host command's response: the code of its condition, 0 for success (R76). -/
def Response.status (r : Response) : BitVec 4 :=
  match r.condition with
  | none => 0
  | some k => k.code

/-- The 2-bit result tag beside a success of `SEND` or `RECEIVE` (R76). -/
def Response.resultTag : Response → Option (BitVec 2)
  | .accepted => some 0
  | .payload _ => some 1
  | .endOfStream => some 2
  | .busy => none
  | .pending => none
  | .fatal _ => none
  | .refused _ => none
  | .checksum _ => none
  | .encoded _ => none
  | .decoded _ => none
  | .register _ => none
  | .rxAccepted => none
  | .rxNotAccepted => none

end Sys2Proof.Machine
end

