-- ==== Sys2Proof/Machine/Ops.lean ====
section
/-! DEFINITION. The shared operations over the Connection: `emit`, `raise`, the capacity test, `CLOSE(cause)` (the CORE's "trap
entry", spec/60_exceptions.md R194) and its one way back, reset (R195), `check_done`, and the event interface of
spec/30_encoding.md R74 (the arbiter of R192, the response). -/

namespace Sys2Proof.Machine

/-- `emit(bytes)`: the bytes are appended to the TX stream (R9, R46). -/
def Conn.emit (frame : Bytes) (c : Conn) : Conn := { c with txStream := c.txStream ++ frame }

/-- `raise <Condition>`: its tag is appended to `trace`; the condition's action is the caller's (R9, R22). -/
def Conn.record (t : Tag) (c : Conn) : Conn := { c with trace := c.trace ++ [t] }

/-- Whether a store of capacity `cap` may hold `n` elements; `none` is unbounded (R7, R49, R143). -/
def capAllows (cap : Option Nat) (n : Nat) : Bool :=
  match cap with
  | none => true
  | some c => decide (n ≤ c)

/-- The fatal condition that a closure leaves for the host: the two abnormal causes have one (R169). -/
def Cause.abort : Cause → Option Abort
  | .normal => none
  | .peerReset => some .peerReset
  | .retriesExhausted => some .retriesExhausted
  | .channelClosed => none

/-- `CLOSE(cause)`: the one procedure by which the connection enters `Closed` (R169, R194). -/
def Conn.close (cause : Cause) (c : Conn) : Conn :=
  { c with
    connState := .closed
    closeCause := some cause
    outstandingFrame := none
    timerArmed := false
    retryCount := 0
    receiveBuffer := []
    chCloseReq := true
    deliveryQueue := if cause.abort = none then c.deliveryQueue else []
    fatalPending := if cause.abort = none then c.fatalPending else cause.abort }

/-- The return from closure: "Only `RESET` starts again, and it forgets the cause" (R195, R171). -/
def Conn.reopen (_ : Conn) : Conn := Conn.reset

/-- `check_done()`: the normal closure once both halves of the END exchange are complete (R144). -/
def Conn.checkDone (c : Conn) : Conn :=
  if c.endAcked = true ∧ c.peerEndReceived = true ∧ c.connState ≠ .closed then c.close .normal else c

/-- A procedure of the reassembler or of the transmitter, which acts only while the connection is not `Closed`
(R126, R135, R167: "Nothing is emitted in `Closed`"). -/
def Conn.whenOpen (f : Conn → Conn) (c : Conn) : Conn := if c.connState = .closed then c else f c

/-- The Connection replaced, the rest of the machine unchanged. -/
def State.withConn (s : State) (c : Conn) : State := { s with st := c }

/-- The event's response given, or none for an event that has none (R74). -/
def State.answer (s : State) (r : Option Response) : State := { s with response := r }

/-- The arbiter's rank of an event: `RESET`, then `RX_BYTES`, then `CH_CLOSE`, then `TIMER_EXPIRE`, then a host command
(R192). A reserved code is a host command (R74, R75). -/
def EventWord.rank (e : EventWord) : Nat :=
  if e.op = 0xF then 0
  else if e.op = 0x8 then 1
  else if e.op = 0x9 then 2
  else if e.op = 0xA then 3
  else 4

/-- The event an arbitration slot gives first, by rank and among equals the one presented first, and what is left (R192). -/
def takeFirst : List EventWord → Option (EventWord × List EventWord)
  | [] => none
  | e :: es =>
    match takeFirst es with
    | none => some (e, [])
    | some (m, rest) => if EventWord.rank e ≤ EventWord.rank m then some (e, es) else some (m, e :: rest)

/-- The next event of the schedule and the schedule that is left: the slots in order, each emptied before the next (R50,
R192). -/
def nextEvent : List (List EventWord) → Option (EventWord × List (List EventWord))
  | [] => none
  | slot :: slots =>
    match takeFirst slot with
    | none => nextEvent slots
    | some (e, rest) => some (e, if rest = [] then slots else rest :: slots)

end Sys2Proof.Machine
end

