-- ==== Sys2Proof/Machine/Arq.lean ====
section
/-! DEFINITION. The Connection State Machine, first part (spec/43_arq_send_receive.md): `SEND`, `SEND.END`, `RECEIVE` and the
four classes of received frames. -/

namespace Sys2Proof.Machine

/-- The effects of an accepted `SEND` (R130, R132): the frame is written to the channel once and the same bytes are kept for
retransmission. -/
def Conn.transmit (frame : Bytes) (isEnd : Bool) (c : Conn) : Conn :=
  { c.emit frame with
    outstandingFrame := some frame
    retryCount := 0
    timerArmed := true
    connState := .awaitingAck
    endSent := c.endSent || isEnd }

/-- The frame that `SEND` or `SEND.END` sends: `ENCODE(next_send_id, flags, payload)` (R130, R132, R133). -/
def Conn.sendFrame (sync : BitVec 32) (isEnd : Bool) (payload : Bytes) (c : Conn) : Bytes :=
  if isEnd then dataEndFrame sync c.nextSendId payload else dataFrame sync c.nextSendId payload

/-- `SEND(payload, end)`: the three refusals in R131's order, then the accepted send (R130). -/
def Conn.send (sync : BitVec 32) (isEnd : Bool) (payload : Bytes) (c : Conn) : Response × Conn :=
  if c.connState = .closed ∨ c.endAcked = true then (.fatal .connectionClosed, c)
  else if payload.length > maxPayload then (.refused .payloadTooLong, c)
  else if c.connState = .awaitingAck then (.busy, c)
  else (.accepted, c.transmit (c.sendFrame sync isEnd payload) isEnd)

/-- `SEND payload` (R130). -/
def execSend (payload : Bytes) (s : State) : Host.Outcome State Fault Refusal :=
  let r := s.st.send s.cfg.sync false payload
  .next ((s.withConn r.2).answer (some r.1))

/-- `SEND.END payload` (R133). -/
def execSendEnd (payload : Bytes) (s : State) : Host.Outcome State Fault Refusal :=
  let r := s.st.send s.cfg.sync true payload
  .next ((s.withConn r.2).answer (some r.1))

/-- `RECEIVE()` (R134): a pending fatal kind, then a queued item, then `ConnectionClosed`, then `EndOfStream`, then
`Pending` (R193). -/
def Conn.receive (c : Conn) : Response × Conn :=
  match c.fatalPending with
  | some k => (.fatal k.fatalKind, { c with fatalPending := none })
  | none =>
    match c.deliveryQueue with
    | item :: rest => (item.response, { c with deliveryQueue := rest })
    | [] =>
      if c.connState = .closed then (.fatal .connectionClosed, c)
      else if c.peerEndReceived = true then (.endOfStream, c)
      else (.pending, c)

/-- `RECEIVE` (R134). -/
def execReceive (s : State) : Host.Outcome State Fault Refusal :=
  let r := s.st.receive
  .next ((s.withConn r.2).answer (some r.1))

/-- `on_rst()` (R136). -/
def Conn.onRst (c : Conn) : Conn := (c.record .peerReset).close .peerReset

/-- The effects of a matching ACK (R137), before `check_done`. -/
def Conn.retire (wasEnd : Bool) (c : Conn) : Conn :=
  { c.record .ackMatched with
    outstandingFrame := none
    timerArmed := false
    retryCount := 0
    nextSendId := c.nextSendId ^^^ 1
    connState := .idle
    endAcked := c.endAcked || wasEnd }

/-- `on_ack(id)` (R137, R138): the id is compared with byte 12 of the outstanding frame, END is read from its byte 13. -/
def Conn.onAck (id : Byte) (c : Conn) : Conn :=
  match c.outstandingFrame with
  | none => c.record .staleAck
  | some f =>
    if id = byteAt f 12 then (c.retire (hasFlag (byteAt f 13) flagEnd)).checkDone
    else c.record .staleAck

/-- A duplicate data frame is acknowledged again and not delivered (R139, R142). -/
def Conn.reack (sync : BitVec 32) (id : Byte) (c : Conn) : Conn :=
  (c.record .duplicateFrame).emit (ackFrame sync id)

/-- The effects of accepting a data frame, with the items it queues (R139, R140). -/
def Conn.accept (sync : BitVec 32) (id : Byte) (items : List Item) (c : Conn) : Conn :=
  { (c.emit (ackFrame sync id)).record .accepted with
    lastAcceptedId := some id
    deliveryQueue := c.deliveryQueue ++ items }

/-- `on_data` for a frame that would queue `items`: the duplicate test, the overflow test, the acceptance (R139, R143). -/
def Conn.onData (cfg : Config) (id : Byte) (items : List Item) (c : Conn) (accepted : Conn → Conn) : Conn :=
  if c.lastAcceptedId = some id then c.reack cfg.sync id
  else if capAllows cfg.deliveryCap (c.deliveryQueue.length + items.length) = false then c.record .deliveryOverflow
  else accepted (c.accept cfg.sync id items)

/-- What a data frame with END queues: its payload if it has one, then `EndOfStream` (R141). -/
def endItems (payload : Bytes) : List Item :=
  if payload = [] then [.endOfStream] else [.payload payload, .endOfStream]

/-- A data frame without END (R139, R140, R143). -/
def Conn.onDataPlain (cfg : Config) (id : Byte) (payload : Bytes) (c : Conn) : Conn :=
  c.onData cfg id [.payload payload] fun a => a

/-- A data frame with END (R139, R141, R143). -/
def Conn.onDataEnd (cfg : Config) (id : Byte) (payload : Bytes) (c : Conn) : Conn :=
  c.onData cfg id (endItems payload) fun a => { a with peerEndReceived := true }.checkDone

/-- `dispatch(id, flags, payload)` (R135), by the class of the frame (R68). -/
def Conn.dispatch (cfg : Config) (id flags : Byte) (payload : Bytes) (c : Conn) : Conn :=
  match frameClass flags with
  | .rst => c.onRst
  | .ack => c.onAck id
  | .dataEnd => c.onDataEnd cfg id payload
  | .data => c.onDataPlain cfg id payload

/-- `F.RST`, handed over by the reassembler (R136); in `Closed` a frame is ignored (R126, R135). -/
def execFRst (_id _flags : Byte) (_payload : Bytes) (s : State) : Host.Outcome State Fault Refusal :=
  .next (s.withConn (s.st.whenOpen Conn.onRst))

/-- `F.ACK` (R137, R138): only the id is used (R71). -/
def execFAck (id _flags : Byte) (_payload : Bytes) (s : State) : Host.Outcome State Fault Refusal :=
  .next (s.withConn (s.st.whenOpen (Conn.onAck id)))

/-- `F.DATA_END` (R139, R141). -/
def execFDataEnd (id _flags : Byte) (payload : Bytes) (s : State) : Host.Outcome State Fault Refusal :=
  .next (s.withConn (s.st.whenOpen (Conn.onDataEnd s.cfg id payload)))

/-- `F.DATA` (R139, R140). -/
def execFData (id _flags : Byte) (payload : Bytes) (s : State) : Host.Outcome State Fault Refusal :=
  .next (s.withConn (s.st.whenOpen (Conn.onDataPlain s.cfg id payload)))

end Sys2Proof.Machine
end

