-- ==== Sys2Proof/Machine/Engine.lean ====
section
/-! DEFINITION. The pure commands `CKSUM`, `ENCODE` and `DECODE` (spec/40_checksum.md R90, spec/41_frame_codec.md R100 to R107):
they "read and write no field of `st` and may be issued in any connection state, including `Closed`" (R74). -/

namespace Sys2Proof.Machine

/-- `CKSUM b` (R90). -/
def execCksum (b : Bytes) (s : State) : Host.Outcome State Fault Refusal :=
  .next (s.answer (some (.checksum (cksum b))))

/-- The response of `ENCODE` (R100, R101). -/
def encodeResponse (sync : BitVec 32) (id flags : Byte) (payload : Bytes) : Response :=
  match encodeFrame sync id flags payload with
  | some f => .encoded f
  | none => .refused .payloadTooLong

/-- `ENCODE id flags payload` (R100, R101). -/
def execEncode (id flags : Byte) (payload : Bytes) (s : State) : Host.Outcome State Fault Refusal :=
  .next (s.answer (some (encodeResponse s.cfg.sync id flags payload)))

/-- `DECODE b` (R102). -/
def execDecode (b : Bytes) (s : State) : Host.Outcome State Fault Refusal :=
  .next (s.answer (some (.decoded (decodeFrame s.cfg.sync b))))

end Sys2Proof.Machine
end

