-- ==== Sys2Proof/Machine/Reassembler.lean ====
section
/-! DEFINITION. The Receive Reassembler (spec/42_reassembler.md): `RX_BYTES`, the extraction loop and `resync`. -/

namespace Sys2Proof.Machine

/-- `marker_prefix_ok(b)`: `b` could be the start of a frame (R122). -/
def markerPrefixOk (sync : BitVec 32) (b : Bytes) : Bool := b.take 8 == (mark sync).take b.length

/-- The `while` of `resync`: bytes are dropped until the buffer is empty or could start a frame (R122). -/
def scanToMarker (sync : BitVec 32) : Bytes → Bytes
  | [] => []
  | x :: rest => if markerPrefixOk sync (x :: rest) then x :: rest else scanToMarker sync rest

/-- `resync(b)`: the first byte and then every byte up to the next possible start of a frame are dropped (R122). -/
def resync (sync : BitVec 32) (b : Bytes) : Bytes := scanToMarker sync (b.drop 1)

/-- The extraction loop (R120, R121), with a bound on its iterations; R124 says that `len + 1` is never exceeded
(DEDUCED, notes/assumptions/13.md). -/
def Conn.extract (cfg : Config) : Nat → Conn → Conn
  | 0, c => c
  | k + 1, c =>
    match decodeFrame cfg.sync c.receiveBuffer with
    | .incomplete => c
    | .frame id flags payload n =>
      let c' := Conn.dispatch cfg id flags payload { c with receiveBuffer := c.receiveBuffer.drop n }
      if c'.connState = .closed then c' else Conn.extract cfg k c'
    | .framingError kind =>
      Conn.extract cfg k { c.record kind.tag with receiveBuffer := resync cfg.sync c.receiveBuffer }

/-- The bytes appended and the frames extracted (R120). -/
def Conn.absorb (cfg : Config) (chunk : Bytes) (c : Conn) : Conn :=
  Conn.extract cfg (c.receiveBuffer.length + chunk.length + 1) { c with receiveBuffer := c.receiveBuffer ++ chunk }

/-- `RX_BYTES(chunk)`: ignored in `Closed` (R126), not accepted when it does not fit (R127), else appended and processed
(R120). -/
def Conn.rx (cfg : Config) (chunk : Bytes) (c : Conn) : Response × Conn :=
  if c.connState = .closed then (.rxAccepted, c)
  else if capAllows cfg.rxbufCap (c.receiveBuffer.length + chunk.length) = false then (.rxNotAccepted, c)
  else (.rxAccepted, c.absorb cfg chunk)

/-- `RX_BYTES chunk` (R120). -/
def execRxBytes (chunk : Bytes) (s : State) : Host.Outcome State Fault Refusal :=
  let r := s.st.rx s.cfg chunk
  .next ((s.withConn r.2).answer (some r.1))

end Sys2Proof.Machine
end

