-- ==== Sys2Proof/Machine/Reserved.lean ====
section
/-! DEFINITION. The reserved event codes (spec/30_encoding.md R75): "the response is `Refused(IllegalCommand)` and no state
changes". -/

namespace Sys2Proof.Machine

/-- The answer to a reserved event code (R75). -/
def State.illegalCommand (s : State) : State := s.answer (some (.refused .illegalCommand))

/-- Event code `0x0` (R75). -/
def execReserved0 (s : State) : Host.Outcome State Fault Refusal := .next s.illegalCommand

/-- Event code `0xB` (R75). -/
def execReservedB (s : State) : Host.Outcome State Fault Refusal := .next s.illegalCommand

/-- Event code `0xC` (R75). -/
def execReservedC (s : State) : Host.Outcome State Fault Refusal := .next s.illegalCommand

/-- Event code `0xD` (R75). -/
def execReservedD (s : State) : Host.Outcome State Fault Refusal := .next s.illegalCommand

/-- Event code `0xE` (R75). -/
def execReservedE (s : State) : Host.Outcome State Fault Refusal := .next s.illegalCommand

end Sys2Proof.Machine
end

