-- ==== Sys2Proof/Machine/Status.lean ====
section
/-! DEFINITION. The status registers (spec/10_state.md R25) and `RDSTAT` (spec/44_arq_timer_termination.md R172). -/

namespace Sys2Proof.Machine

/-- The encoding of `conn_state` (R11). -/
def ConnState.code : ConnState → Nat
  | .idle => 0
  | .awaitingAck => 1
  | .closed => 2

/-- The encoding of `close_cause` (R20). -/
def Cause.code : Cause → Nat
  | .normal => 1
  | .peerReset => 2
  | .retriesExhausted => 3
  | .channelClosed => 4

/-- The encoding of `fatal_pending` (R25). -/
def Abort.code : Abort → Nat
  | .peerReset => 1
  | .retriesExhausted => 2

/-- Register 4, `FLAGS` (R25). -/
def Conn.flagsReg (c : Conn) : Nat :=
  c.timerArmed.toNat + 2 * c.endSent.toNat + 4 * c.endAcked.toNat + 8 * c.peerEndReceived.toNat
    + 16 * c.chCloseReq.toNat + 32 * c.outstandingFrame.isSome.toNat

/-- The content of status register `n`, 0 for a number not in the map (R25). A length wider than register 7 or 9 shows its low
bits (DESIGN CHOICE, notes/assumptions/7.md); R28 rules such lengths out. -/
def statusContent (cfg : Config) (c : Conn) (n : Byte) : Nat :=
  match n.toNat with
  | 0 => c.connState.code
  | 1 => c.nextSendId.toNat
  | 2 => (c.lastAcceptedId.map fun id => 256 + id.toNat).getD 0
  | 3 => c.retryCount.toNat
  | 4 => c.flagsReg
  | 5 => (c.closeCause.map Cause.code).getD 0
  | 6 => (c.fatalPending.map Abort.code).getD 0
  | 7 => c.receiveBuffer.length % 2 ^ 16
  | 8 => min c.deliveryQueue.length 0xFFFF
  | 9 => (c.outstandingFrame.map List.length).getD 0 % 2 ^ 13
  | 16 => cfg.sync.toNat
  | 17 => cfg.retryCeiling.toNat
  | 18 => maxPayload
  | _ => 0

/-- `RDSTAT n` (R172): the register, zero-extended to 32 bits. -/
def execRdstat (n : Byte) (s : State) : Host.Outcome State Fault Refusal :=
  .next (s.answer (some (.register (BitVec.ofNat 32 (statusContent s.cfg s.st n)))))

end Sys2Proof.Machine
end

