-- ==== Sys2Proof/Machine/Timer.lean ====
section
/-! DEFINITION. The Connection State Machine, second part (spec/44_arq_timer_termination.md): `TIMER_EXPIRE`, `CH_CLOSE` and
`RESET`. -/

namespace Sys2Proof.Machine

/-- `TIMER_EXPIRE()` (R160 to R163). With the timer armed and no outstanding frame, which R28 I1 rules out, nothing is written
(DESIGN CHOICE, notes/assumptions/9.md). -/
def Conn.timerExpire (cfg : Config) (c : Conn) : Conn :=
  if c.timerArmed = false then c
  else if c.retryCount + 1 > cfg.retryCeiling then
    (({ c with retryCount := c.retryCount + 1 }.record .retriesExhausted).emit (rstFrame cfg.sync)).close .retriesExhausted
  else { c with retryCount := c.retryCount + 1 }.emit (c.outstandingFrame.getD [])

/-- `TIMER_EXPIRE` (R160). -/
def execTimerExpire (s : State) : Host.Outcome State Fault Refusal :=
  .next ((s.withConn (s.st.timerExpire s.cfg)).answer none)

/-- `CH_CLOSE` (R168). -/
def execChClose (s : State) : Host.Outcome State Fault Refusal :=
  .next ((s.withConn (s.st.whenOpen (Conn.close .channelClosed))).answer none)

/-- `RESET`: every field of `st` takes its reset value, whatever the state before (R171); the configuration keeps its
hardwired values (R211). -/
def execReset (s : State) : Host.Outcome State Fault Refusal :=
  .next ((s.withConn s.st.reopen).answer none)

end Sys2Proof.Machine
end

