-- ==== Sys2Proof/Machine/Transmit.lean ====
section
/-! DEFINITION. The four shapes of emitted frames as operations (spec/30_encoding.md R69): each is the emission of one frame of
that shape, `emit(ENCODE(...))` (R132, R133, R142, R162). They are procedures inside `SEND`, `SEND.END`, the handling of a data
frame and `TIMER_EXPIRE`; no event of R74 is one of them (DEDUCED, notes/assumptions/4.md). -/

namespace Sys2Proof.Machine

/-- `emit(ENCODE(id, flags, payload))` (R46, R100): nothing is emitted for an over-long payload (R101) or in `Closed`
(R167). -/
def Conn.emitEncoded (sync : BitVec 32) (id flags : Byte) (payload : Bytes) (c : Conn) : Conn :=
  match encodeFrame sync id flags payload with
  | none => c
  | some f => c.whenOpen (Conn.emit f)

/-- `TX.DATA` (R132). -/
def execTxData (id : Byte) (payload : Bytes) (s : State) : Host.Outcome State Fault Refusal :=
  .next (s.withConn (s.st.emitEncoded s.cfg.sync id 0x00 payload))

/-- `TX.DATA_END` (R133). -/
def execTxDataEnd (id : Byte) (payload : Bytes) (s : State) : Host.Outcome State Fault Refusal :=
  .next (s.withConn (s.st.emitEncoded s.cfg.sync id flagEnd payload))

/-- `TX.ACK` (R142). -/
def execTxAck (id : Byte) (s : State) : Host.Outcome State Fault Refusal :=
  .next (s.withConn (s.st.emitEncoded s.cfg.sync id flagAck []))

/-- `TX.RST` (R162). -/
def execTxRst (s : State) : Host.Outcome State Fault Refusal :=
  .next (s.withConn (s.st.emitEncoded s.cfg.sync 0x00 flagRst []))

end Sys2Proof.Machine
end

