-- ==== Sys2Proof/Machine/Dispatch.lean ====
section
/-! DEFINITION. The meaning of each operation: one arm per row of spec/opcode_table.json. -/

namespace Sys2Proof.Machine

def exec (i : Instr) (s : State) : Host.Outcome State Fault Refusal :=
  match i with
  | .cksum b => Sys2Proof.Machine.execCksum b s
  | .encodeFrame id flags payload => Sys2Proof.Machine.execEncode id flags payload s
  | .decodeFrame b => Sys2Proof.Machine.execDecode b s
  | .send payload => Sys2Proof.Machine.execSend payload s
  | .sendEnd payload => Sys2Proof.Machine.execSendEnd payload s
  | .receive => Sys2Proof.Machine.execReceive s
  | .rdstat n => Sys2Proof.Machine.execRdstat n s
  | .rxBytes chunk => Sys2Proof.Machine.execRxBytes chunk s
  | .chClose => Sys2Proof.Machine.execChClose s
  | .timerExpire => Sys2Proof.Machine.execTimerExpire s
  | .reset => Sys2Proof.Machine.execReset s
  | .reserved0 => Sys2Proof.Machine.execReserved0 s
  | .reservedB => Sys2Proof.Machine.execReservedB s
  | .reservedC => Sys2Proof.Machine.execReservedC s
  | .reservedD => Sys2Proof.Machine.execReservedD s
  | .reservedE => Sys2Proof.Machine.execReservedE s
  | .fRst id flags payload => Sys2Proof.Machine.execFRst id flags payload s
  | .fAck id flags payload => Sys2Proof.Machine.execFAck id flags payload s
  | .fDataEnd id flags payload => Sys2Proof.Machine.execFDataEnd id flags payload s
  | .fData id flags payload => Sys2Proof.Machine.execFData id flags payload s
  | .txData id payload => Sys2Proof.Machine.execTxData id payload s
  | .txDataEnd id payload => Sys2Proof.Machine.execTxDataEnd id payload s
  | .txAck id => Sys2Proof.Machine.execTxAck id s
  | .txRst => Sys2Proof.Machine.execTxRst s

end Sys2Proof.Machine
end

