-- ==== Sys2Proof/Machine/Step.lean ====
section
/-! DEFINITION. One step of the machine: the next event that the environment presents is taken from the schedule, decoded and
run, atomically (spec/20_memory.md R50). -/

namespace Sys2Proof.Machine

/-- One step: the next event of the schedule runs; with no event presented the CORE waits (R210). -/
def step (s : State) : Host.Outcome State Fault Refusal :=
  match nextEvent s.slots with
  | none => .next s
  | some (e, rest) => exec (decodeEvent e) { s with slots := rest }

/-- The state with a word of the opcode table presented as the next event. A frame is presented as `RX_BYTES` of its bytes, the
only way a frame reaches the CORE (R120); the bytes buffered before are taken away, so that the frame stands at the front. -/
def State.withFetchWord (s : State) (nbits w : Nat) : State :=
  { s with
    slots := [tableEvent nbits w] :: s.slots
    st := if isEventRow nbits then s.st else { s.st with receiveBuffer := [] } }

end Sys2Proof.Machine
end

