-- ==== Sys2Proof/Safety.lean ====
section
/-! DEFINITION. What counts as a good state, in the terms of the claims: the invariants of spec/10_state.md R28 with the facts
about single fields that R14, R18, R19, R20 and R169 state beside them; and the operations of one event run one after another. -/

namespace Sys2Proof.Machine

/-- The invariants of the Connection under the configuration `cfg`. The labels I1 to I9 are R28's; of I9 only what one state
shows is kept (a queued `EndOfStream` means that the peer's END was accepted). -/
structure Conn.Inv (cfg : Config) (c : Conn) : Prop where
  /-- I1: `AwaitingAck` if and only if a frame is outstanding -/
  awaiting_iff_outstanding : c.connState = .awaitingAck ↔ c.outstandingFrame ≠ none
  /-- I1: `AwaitingAck` if and only if the timer is armed -/
  awaiting_iff_armed : c.connState = .awaitingAck ↔ c.timerArmed = true
  /-- I2 -/
  closed_form : c.connState = .closed →
    c.outstandingFrame = none ∧ c.timerArmed = false ∧ c.retryCount = 0 ∧ c.receiveBuffer = [] ∧ c.chCloseReq = true ∧
      c.closeCause ≠ none
  /-- I3 -/
  open_form : c.connState ≠ .closed → c.closeCause = none ∧ c.fatalPending = none ∧ c.chCloseReq = false
  /-- I4, first half -/
  acked_was_sent : c.endAcked = true → c.endSent = true
  /-- I4, second half -/
  unacked_end : c.endSent = true → c.endAcked = false →
    (c.connState = .awaitingAck ∧ ∃ f, c.outstandingFrame = some f ∧ hasFlag (byteAt f 13) flagEnd = true) ∨
      c.connState = .closed
  /-- R131, R137: no frame is outstanding once this side's END is acknowledged, since `SEND` then fails -/
  acked_not_awaiting : c.endAcked = true → c.connState ≠ .awaitingAck
  /-- I5, first half -/
  next_id : c.nextSendId = 0 ∨ c.nextSendId = 1
  /-- I5, second half, with R14: the outstanding frame is the frame `SEND` or `SEND.END` made with `next_send_id`; an END
  frame was sent by `SEND.END` (R19) -/
  outstanding_form : ∀ f, c.outstandingFrame = some f →
    ∃ (isEnd : Bool) (payload : Bytes), payload.length ≤ maxPayload ∧ f = c.sendFrame cfg.sync isEnd payload ∧
      (isEnd = true → c.endSent = true)
  /-- I6 -/
  retry_bound : c.retryCount ≤ cfg.retryCeiling
  /-- I6 -/
  idle_retry : c.connState = .idle → c.retryCount = 0
  /-- I7 -/
  buffer_bound : c.receiveBuffer.length ≤ maxFrame - 1
  /-- I7 -/
  buffer_incomplete : decodeFrame cfg.sync c.receiveBuffer = .incomplete
  /-- I8 -/
  both_ends : c.endAcked = true → c.peerEndReceived = true → c.connState = .closed
  /-- of I9 -/
  end_queued : Item.endOfStream ∈ c.deliveryQueue → c.peerEndReceived = true
  /-- R18: a queued payload is within the bound -/
  payload_bound : ∀ b, Item.payload b ∈ c.deliveryQueue → b.length ≤ maxPayload
  /-- R18: the queue is within its capacity -/
  queue_bound : capAllows cfg.deliveryCap c.deliveryQueue.length = true
  /-- R20: a pending fatal condition is that of the cause -/
  fatal_of_cause : ∀ k, c.fatalPending = some k → ∃ cause, c.closeCause = some cause ∧ cause.abort = some k
  /-- R134 (c), R169: after an abnormal closure the queue is empty -/
  aborted_queue : ∀ cause, c.closeCause = some cause → cause.abort ≠ none → c.deliveryQueue = []

/-- A good state of the machine: a configuration within R7's bounds and a Connection with the invariants of R28. -/
def State.Inv (s : State) : Prop := s.cfg.wf = true ∧ s.st.Inv s.cfg

/-- Whether an operation is a received frame (R68). -/
def isReceivedFrame : Instr → Bool
  | .fRst _ _ _ => true
  | .fAck _ _ _ => true
  | .fDataEnd _ _ _ => true
  | .fData _ _ _ => true
  | .cksum _ => false
  | .encodeFrame _ _ _ => false
  | .decodeFrame _ => false
  | .send _ => false
  | .sendEnd _ => false
  | .receive => false
  | .rdstat _ => false
  | .rxBytes _ => false
  | .chClose => false
  | .timerExpire => false
  | .reset => false
  | .reserved0 => false
  | .reservedB => false
  | .reservedC => false
  | .reservedD => false
  | .reservedE => false
  | .txData _ _ => false
  | .txDataEnd _ _ => false
  | .txAck _ => false
  | .txRst => false

/-- Operations run one after another, each on the state the one before left: "frames are dispatched one by one in buffer order,
each dispatch seeing the state left by the one before" (R121). -/
def execAll : List Instr → State → Host.Outcome State Fault Refusal
  | [], s => .next s
  | i :: rest, s =>
    match exec i s with
    | .next t => execAll rest t
    | .fault r => .fault r
    | .refused r => .refused r

end Sys2Proof.Machine
end

