-- ==== Sys2Proof/WellFormed.lean ====
section
/-! DEFINITION. Which terms of `Instr` are operations of the CORE. A command or event is well formed whatever its operands
are: an over-long payload of `ENCODE` or `SEND` is answered with a refusal (spec/41_frame_codec.md R101), not excluded. A
received frame has a payload within the bound (spec/30_encoding.md R65) and flags of its class (R68); an emitted frame has the
fields of its shape (R69). -/

namespace Sys2Proof

open Sys2Proof.Machine in
/-- The checks on the operands of an operation (R65, R68, R69). -/
def Instr.wf : Instr → Bool
  | .cksum _ => true
  | .encodeFrame _ _ _ => true
  | .decodeFrame _ => true
  | .send _ => true
  | .sendEnd _ => true
  | .receive => true
  | .rdstat _ => true
  | .rxBytes _ => true
  | .chClose => true
  | .timerExpire => true
  | .reset => true
  | .reserved0 => true
  | .reservedB => true
  | .reservedC => true
  | .reservedD => true
  | .reservedE => true
  | .fRst _ flags payload => decide (payload.length ≤ maxPayload) && decide (frameClass flags = .rst)
  | .fAck _ flags payload => decide (payload.length ≤ maxPayload) && decide (frameClass flags = .ack)
  | .fDataEnd _ flags payload => decide (payload.length ≤ maxPayload) && decide (frameClass flags = .dataEnd)
  | .fData _ flags payload => decide (payload.length ≤ maxPayload) && decide (frameClass flags = .data)
  | .txData id payload => decide (payload.length ≤ maxPayload) && decide (id.toNat ≤ 1)
  | .txDataEnd id payload => decide (payload.length ≤ maxPayload) && decide (id.toNat ≤ 1)
  | .txAck _ => true
  | .txRst => true

end Sys2Proof
end

