-- ==== Sys2Proof/Certificates/Slice0/Obligations.lean ====
section
/-! DEFINITION. The statements about the TP-Redes CORE, in the spec's order: the Checksum Engine, the Frame Codec, the words, the
Connection State Machine, the reassembler, timer and termination, the machine as a whole. Each docstring names the rules. -/

open Sys2Proof Sys2Proof.Machine

/-! ### The Checksum Engine -/

/-- `CKSUM` answers `0xFFFF - F`, where `F` is 0 exactly for the sum 0 and else the member of `1 .. 0xFFFF` congruent to the
sum `S` of the block's big-endian words modulo `0xFFFF` (R90 to R93); nothing else changes. -/
def Obligations.CksumAnswersTheComplementOfTheFoldedSum : Prop :=
  ∀ (s : State) (b : Bytes),
    let word : Nat → Nat := fun k =>
      if 2 * k + 1 < b.length then (byteAt b (2 * k)).toNat * 256 + (byteAt b (2 * k + 1)).toNat
      else (byteAt b (2 * k)).toNat * 256
    let S := ((List.range ((b.length + 1) / 2)).map word).sum
    ∃ F, F ≤ 0xFFFF ∧ (F = 0 ↔ S = 0) ∧ F % 0xFFFF = S % 0xFFFF ∧
      exec (.cksum b) s = .next { s with response := some (.checksum (BitVec.ofNat 16 (0xFFFF - F))) }

/-- The streaming form, one word a step with end-around carry, computes `CKSUM` (R94). -/
def Obligations.StreamingChecksumIsTheChecksum : Prop :=
  ∀ b : Bytes, cksumStream b = cksum b

/-- Trailing zero bytes do not change the checksum (R97 (a)). -/
def Obligations.TrailingZerosKeepTheChecksum : Prop :=
  ∀ b : Bytes, cksum (b ++ [0]) = cksum b ∧ cksum (b ++ [0, 0]) = cksum b

/-- The checksum depends only on the multiset of the block's words: any reordering of whole words keeps it (R97 (b)). -/
def Obligations.ReorderingWordsKeepsTheChecksum : Prop :=
  ∀ (ws ws' : List (BitVec 16)) (tail : Bytes), ws.Perm ws' →
    cksum (ws.flatMap be16 ++ tail) = cksum (ws'.flatMap be16 ++ tail)

/-- Two blocks that differ in one whole word have different checksums unless the words are congruent modulo `0xFFFF`
(R97 (c)). -/
def Obligations.ChangedWordChangesTheChecksum : Prop :=
  ∀ (a tail : Bytes) (w w' : BitVec 16), a.length % 2 = 0 →
    cksum (a ++ be16 w ++ tail) = cksum (a ++ be16 w' ++ tail) → w.toNat % 0xFFFF = w'.toNat % 0xFFFF

/-! ### The Frame Codec -/

/-- `ENCODE` within the bound answers the frame of R61: two markers, the checksum of the frame with a zero field, the payload's
length, id, flags, payload (R100); nothing else changes. -/
def Obligations.EncodeLaysOutTheFrame : Prop :=
  ∀ (s : State) (id flags : Byte) (p : Bytes), p.length ≤ 4096 →
    let header : BitVec 16 → Bytes := fun ck =>
      be32 s.cfg.sync ++ be32 s.cfg.sync ++ be16 ck ++ be16 (BitVec.ofNat 16 p.length) ++ [id, flags]
    exec (.encodeFrame id flags p) s =
      .next { s with response := some (.encoded (header (cksum (header 0 ++ p)) ++ p)) }

/-- `ENCODE` of a longer payload is refused: no bytes, nothing else changes (R101). -/
def Obligations.EncodeRefusesALongPayload : Prop :=
  ∀ (s : State) (id flags : Byte) (p : Bytes), 4096 < p.length →
    exec (.encodeFrame id flags p) s = .next { s with response := some (.refused .payloadTooLong) }

/-- `DECODE` answers the first test that applies, in the order of R102, and changes nothing else (R103 to R107). -/
def Obligations.DecodeTestsInOrder : Prop :=
  ∀ (s : State) (b : Bytes),
    let L := (be16At b 10).toNat
    let answers : DecodeResult → Prop := fun r => exec (.decodeFrame b) s = .next { s with response := some (.decoded r) }
    let synced := be32At b 0 = s.cfg.sync ∧ be32At b 4 = s.cfg.sync
    let sealed := be16At b 8 = cksum (b.take 8 ++ [0, 0] ++ (b.drop 10).take (4 + L))
    (b.length < 14 → answers .incomplete) ∧
    (14 ≤ b.length → 4096 < L → answers (.framingError .lengthOutOfRange)) ∧
    (14 ≤ b.length → L ≤ 4096 → b.length < 14 + L → answers .incomplete) ∧
    (L ≤ 4096 → 14 + L ≤ b.length → ¬synced → answers (.framingError .invalidSync)) ∧
    (L ≤ 4096 → 14 + L ≤ b.length → synced → ¬sealed → answers (.framingError .checksumMismatch)) ∧
    (L ≤ 4096 → 14 + L ≤ b.length → synced → sealed →
      answers (.frame (byteAt b 12) (byteAt b 13) ((b.drop 14).take L) (14 + L)))

/-- The round trip: `DECODE` gives back what `ENCODE` was given, whatever bytes follow, and `Incomplete` for every proper
prefix of the frame (R108). -/
def Obligations.DecodeGivesBackWhatEncodeWasGiven : Prop :=
  ∀ (s : State) (id flags : Byte) (p : Bytes), p.length ≤ 4096 →
    ∃ f, exec (.encodeFrame id flags p) s = .next { s with response := some (.encoded f) } ∧
      (∀ t, exec (.decodeFrame (f ++ t)) s =
        .next { s with response := some (.decoded (.frame id flags p (14 + p.length))) }) ∧
      ∀ n, n < f.length → exec (.decodeFrame (f.take n)) s = .next { s with response := some (.decoded .incomplete) }

/-- `DECODE` answers a frame only for bytes that begin with the encoding of that frame (R109 (b)). -/
def Obligations.DecodeAcceptsOnlyEncodings : Prop :=
  ∀ (sync : BitVec 32) (b : Bytes) (id flags : Byte) (p : Bytes) (n : Nat),
    Machine.decodeFrame sync b = .frame id flags p n →
      p.length ≤ 4096 ∧ n = 14 + p.length ∧ Machine.encodeFrame sync id flags p = some (b.take n)

/-- `DECODE` looks at nothing beyond the candidate frame (R109 (a)). -/
def Obligations.DecodeLooksAtTheCandidateOnly : Prop :=
  ∀ (sync : BitVec 32) (b t : Bytes), 14 + declaredLength b ≤ b.length →
    Machine.decodeFrame sync (b.take (14 + declaredLength b) ++ t) = Machine.decodeFrame sync b

/-- One inverted bit in an encoded frame (R111): in a sync field it gives `InvalidSync`; in the checksum, id, flags or payload,
`ChecksumMismatch`; in the length field, `LengthOutOfRange` above the bound and `Incomplete` for a longer frame. A bit that
shortens the length is the exception: the check is made over the shorter block, and where that matches, the frame is accepted
truncated, as R111's example shows. -/
def Obligations.OneInvertedBitIsSeenUnlessItShortensTheFrame : Prop :=
  (∀ (sync : BitVec 32) (id flags : Byte) (p : Bytes) (k j : Nat), p.length ≤ 4096 → j < 8 →
    let f := buildFrame sync id flags p
    let f' := f.set k (byteAt f k ^^^ (1#8 <<< j))
    let L' := declaredLength f'
    (k < 8 → Machine.decodeFrame sync f' = .framingError .invalidSync) ∧
    (k = 8 ∨ k = 9 ∨ (12 ≤ k ∧ k < 14 + p.length) →
      Machine.decodeFrame sync f' = .framingError .checksumMismatch) ∧
    (k = 10 ∨ k = 11 → 4096 < L' → Machine.decodeFrame sync f' = .framingError .lengthOutOfRange) ∧
    (k = 10 ∨ k = 11 → p.length < L' → L' ≤ 4096 → Machine.decodeFrame sync f' = .incomplete) ∧
    (k = 10 ∨ k = 11 → L' < p.length → Machine.decodeFrame sync f' =
      if be16At f 8 = cksum (f'.take 8 ++ [0, 0] ++ (f'.drop 10).take (4 + L')) then
        .frame id flags (p.take L') (14 + L')
      else .framingError .checksumMismatch)) ∧
  let f := buildFrame Config.default.sync 0 0x00 [0xFF, 0xFB, 0x00, 0x00]
  Machine.decodeFrame Config.default.sync (f.set 11 (byteAt f 11 ^^^ (1#8 <<< 2))) = .frame 0 0x00 [] 14

/-! ### The words -/

/-- The classes of received frames are the masks of R68, disjoint and covering all flags, and the reserved bits 4 to 0 are
ignored (R70). -/
def Obligations.FrameClassesAreTheMasksOfTheTable : Prop :=
  ∀ flags : Byte,
    (frameClass flags = .rst ↔ flags &&& 0x20 = 0x20) ∧ (frameClass flags = .ack ↔ flags &&& 0xA0 = 0x80) ∧
    (frameClass flags = .dataEnd ↔ flags &&& 0xE0 = 0x40) ∧ (frameClass flags = .data ↔ flags &&& 0xE0 = 0x00) ∧
    frameClass (flags &&& 0xE0) = frameClass flags

/-- Decode and encode agree: the word of every well-formed operation, of all 24 rows, decodes to that operation, with every
operand at every value the encoding admits. -/
def Obligations.EveryOperationDecodesFromItsWord : Prop :=
  ∀ (sync : BitVec 32) (i : Instr), i.wf = true → decode sync (encode sync i) = .ok i

/-- The header-only frames that the CORE emits with the default `SYNC` are the constants of R69. -/
def Obligations.HeaderOnlyFramesAreTheConstants : Prop :=
  let sync := Config.default.sync
  let m : Bytes := [0xDC, 0xC0, 0x23, 0xC2, 0xDC, 0xC0, 0x23, 0xC2]
  encode sync (.txAck 0) = .frameTx (m ++ [0xFE, 0x79, 0x00, 0x00, 0x00, 0x80]) ∧
  encode sync (.txAck 1) = .frameTx (m ++ [0xFD, 0x79, 0x00, 0x00, 0x01, 0x80]) ∧
  encode sync .txRst = .frameTx (m ++ [0xFE, 0xD9, 0x00, 0x00, 0x00, 0x20]) ∧
  encode sync (.txDataEnd 0 []) = .frameTx (m ++ [0xFE, 0xB9, 0x00, 0x00, 0x00, 0x40]) ∧
  encode sync (.txDataEnd 1 []) = .frameTx (m ++ [0xFD, 0xB9, 0x00, 0x00, 0x01, 0x40]) ∧
  encode sync (.txData 0 []) = .frameTx (m ++ [0xFE, 0xF9, 0x00, 0x00, 0x00, 0x00])

/-- Words written out from R61 and R74 decode to the operations they stand for: an event word of each kind of operand, a
received frame of each class, an emitted frame. -/
def Obligations.WrittenOutWordsDecode : Prop :=
  let sync := Config.default.sync
  let m : Bytes := [0xDC, 0xC0, 0x23, 0xC2, 0xDC, 0xC0, 0x23, 0xC2]
  decode sync (.cmd { op := 0x2, args := { id := 7, flags := 0x80, bytes := [1] } }) = .ok (.encodeFrame 7 0x80 [1]) ∧
  decode sync (.cmd { op := 0x5, args := { bytes := [0x6C] } }) = .ok (.sendEnd [0x6C]) ∧
  decode sync (.cmd { op := 0x7, args := { n := 3 } }) = .ok (.rdstat 3) ∧
  decode sync (.cmd { op := 0xA }) = .ok .timerExpire ∧
  decode sync (.cmd { op := 0xF }) = .ok .reset ∧
  decode sync (.cmd { op := 0xB }) = .ok .reservedB ∧
  decode sync (.frameRx (m ++ [0xFE, 0xD9, 0x00, 0x00, 0x00, 0x20])) = .ok (.fRst 0 0x20 []) ∧
  decode sync (.frameRx (m ++ [0xFE, 0x79, 0x00, 0x00, 0x00, 0x80])) = .ok (.fAck 0 0x80 []) ∧
  decode sync (.frameRx (m ++ [0x36, 0x3D, 0x00, 0x03, 0x01, 0x40, 0x62, 0x79, 0x65])) =
    .ok (.fDataEnd 1 0x40 [0x62, 0x79, 0x65]) ∧
  decode sync (.frameRx (m ++ [0x9D, 0xF8, 0x00, 0x01, 0x00, 0x00, 0x61])) = .ok (.fData 0 0x00 [0x61]) ∧
  decode sync (.frameTx (m ++ [0x9D, 0xF8, 0x00, 0x01, 0x00, 0x00, 0x61])) = .ok (.txData 0 [0x61])

/-! ### The Connection State Machine: commands -/

/-- An accepted `SEND` (R130, R132): in `Idle` with the send side open and a payload within the bound, the data frame with
`next_send_id` and flags 0 is written once and kept, the retry count is 0, the timer armed, the state `AwaitingAck`, the answer
`Accepted`; nothing else changes. -/
def Obligations.SendTransmitsAndKeepsTheFrame : Prop :=
  ∀ (s : State) (p : Bytes), s.st.connState = .idle → s.st.endAcked = false → p.length ≤ 4096 →
    let f := buildFrame s.cfg.sync s.st.nextSendId 0x00 p
    exec (.send p) s = .next { s with
      response := some .accepted
      st := { s.st with
        txStream := s.st.txStream ++ f
        outstandingFrame := some f
        retryCount := 0
        timerArmed := true
        connState := .awaitingAck } }

/-- An accepted `SEND.END` (R133): as `SEND`, with the END flag in the frame, and `end_sent` becomes true. -/
def Obligations.SendEndTransmitsAndMarksTheEnd : Prop :=
  ∀ (s : State) (p : Bytes), s.st.connState = .idle → s.st.endAcked = false → p.length ≤ 4096 →
    let f := buildFrame s.cfg.sync s.st.nextSendId 0x40 p
    exec (.sendEnd p) s = .next { s with
      response := some .accepted
      st := { s.st with
        txStream := s.st.txStream ++ f
        outstandingFrame := some f
        retryCount := 0
        timerArmed := true
        connState := .awaitingAck
        endSent := true } }

/-- The refusals of `SEND` and `SEND.END`, in R131's order: `ConnectionClosed`, then `PayloadTooLong`, then `Busy`; only the
response changes. -/
def Obligations.SendRefusesInOrder : Prop :=
  ∀ (s : State) (p : Bytes) (i : Instr), i = .send p ∨ i = .sendEnd p →
    let answers : Response → Prop := fun r => exec i s = .next { s with response := some r }
    (s.st.connState = .closed ∨ s.st.endAcked = true → answers (.fatal .connectionClosed)) ∧
    (s.st.connState ≠ .closed → s.st.endAcked = false → 4096 < p.length → answers (.refused .payloadTooLong)) ∧
    (s.st.connState = .awaitingAck → s.st.endAcked = false → p.length ≤ 4096 → answers .busy)

/-- `RECEIVE` (R134): a pending fatal kind is answered and cleared; else the first item is answered and removed; else
`ConnectionClosed` in `Closed`; else `EndOfStream` after the peer's END; else `Pending`. Nothing else changes. -/
def Obligations.ReceiveTakesWhatIsReady : Prop :=
  ∀ s : State,
    (∀ k, s.st.fatalPending = some k → exec .receive s = .next { s with
      st := { s.st with fatalPending := none }
      response := some (.fatal (match k with | .peerReset => .peerReset | .retriesExhausted => .retriesExhausted)) }) ∧
    (∀ b rest, s.st.fatalPending = none → s.st.deliveryQueue = .payload b :: rest → exec .receive s = .next { s with
      st := { s.st with deliveryQueue := rest }
      response := some (.payload b) }) ∧
    (∀ rest, s.st.fatalPending = none → s.st.deliveryQueue = .endOfStream :: rest → exec .receive s = .next { s with
      st := { s.st with deliveryQueue := rest }
      response := some .endOfStream }) ∧
    (s.st.fatalPending = none → s.st.deliveryQueue = [] → exec .receive s = .next { s with
      response := some (if s.st.connState = .closed then .fatal .connectionClosed
        else if s.st.peerEndReceived = true then .endOfStream
        else .pending) })

/-- `RDSTAT` reads the registers of R25 and changes nothing but the response (R172). Registers not in the map
read 0. -/
def Obligations.RdstatReadsTheRegisterMap : Prop :=
  ∀ s : State,
    let reads : Byte → BitVec 32 → Prop := fun n v => exec (.rdstat n) s = .next { s with response := some (.register v) }
    reads 0 (match s.st.connState with | .idle => 0 | .awaitingAck => 1 | .closed => 2) ∧
    reads 1 (s.st.nextSendId.setWidth 32) ∧
    reads 2 (match s.st.lastAcceptedId with | none => 0 | some id => 0x100 ||| id.setWidth 32) ∧
    reads 3 (s.st.retryCount.setWidth 32) ∧
    (∃ v, reads 4 v ∧ v.getLsbD 0 = s.st.timerArmed ∧ v.getLsbD 1 = s.st.endSent ∧ v.getLsbD 2 = s.st.endAcked ∧
      v.getLsbD 3 = s.st.peerEndReceived ∧ v.getLsbD 4 = s.st.chCloseReq ∧
      v.getLsbD 5 = s.st.outstandingFrame.isSome ∧ v.toNat < 64) ∧
    reads 5 (match s.st.closeCause with
      | none => 0 | some .normal => 1 | some .peerReset => 2 | some .retriesExhausted => 3 | some .channelClosed => 4) ∧
    reads 6 (match s.st.fatalPending with | none => 0 | some .peerReset => 1 | some .retriesExhausted => 2) ∧
    (s.st.receiveBuffer.length < 2 ^ 16 → reads 7 (BitVec.ofNat 32 s.st.receiveBuffer.length)) ∧
    reads 8 (if s.st.deliveryQueue.length ≤ 0xFFFF then BitVec.ofNat 32 s.st.deliveryQueue.length else 0xFFFF) ∧
    (s.st.outstandingFrame = none → reads 9 0) ∧
    (∀ f, s.st.outstandingFrame = some f → f.length < 2 ^ 13 → reads 9 (BitVec.ofNat 32 f.length)) ∧
    reads 16 s.cfg.sync ∧
    reads 17 (s.cfg.retryCeiling.setWidth 32) ∧
    reads 18 4096 ∧
    ∀ n : Byte, (10 ≤ n.toNat ∧ n.toNat ≤ 15) ∨ 19 ≤ n.toNat → reads n 0

/-! ### The Connection State Machine: received frames -/

/-- `F.RST` while the connection is open (R136): `Closed` with cause and pending fatal condition `PeerReset`, timer and buffers
cleared, the queue emptied, the closing of the channel requested, nothing emitted; id, flags and payload are not used. -/
def Obligations.ReceivedRstClosesAndDiscards : Prop :=
  ∀ (s : State) (id flags : Byte) (p : Bytes), s.st.connState ≠ .closed →
    exec (.fRst id flags p) s = .next { s with
      st := { s.st with
        connState := .closed
        closeCause := some .peerReset
        fatalPending := some .peerReset
        outstandingFrame := none
        timerArmed := false
        retryCount := 0
        receiveBuffer := []
        deliveryQueue := []
        chCloseReq := true
        trace := s.st.trace ++ [.peerReset] } }

/-- A matching `F.ACK` (R137, R144): the outstanding frame is retired, the timer stopped, the retry count 0, the id toggled, the
state `Idle`, `end_acked` set if the frame carried END; when that completes the END exchange the connection closes with cause
`Normal` and keeps the queue. Nothing is emitted; the flags and the payload are not used. -/
def Obligations.MatchingAckRetiresTheFrame : Prop :=
  ∀ (s : State) (id flags : Byte) (p f : Bytes), s.st.connState ≠ .closed → s.st.outstandingFrame = some f →
    f.getD 12 0 = id →
    let acked := s.st.endAcked || (f.getD 13 0).getLsbD 6
    let retired : Conn := { s.st with
      outstandingFrame := none
      timerArmed := false
      retryCount := 0
      nextSendId := s.st.nextSendId ^^^ 1
      connState := .idle
      endAcked := acked
      trace := s.st.trace ++ [.ackMatched] }
    (acked = false ∨ s.st.peerEndReceived = false → exec (.fAck id flags p) s = .next { s with st := retired }) ∧
    (acked = true → s.st.peerEndReceived = true → exec (.fAck id flags p) s = .next { s with
      st := { retired with
        connState := .closed
        closeCause := some .normal
        receiveBuffer := []
        chCloseReq := true } })

/-- A stale `F.ACK`, for another id or with nothing outstanding, changes nothing but the trace (R138). -/
def Obligations.StaleAckChangesNothing : Prop :=
  ∀ (s : State) (id flags : Byte) (p : Bytes), s.st.connState ≠ .closed →
    (∀ f, s.st.outstandingFrame = some f → f.getD 12 0 ≠ id) →
    exec (.fAck id flags p) s = .next { s with st := { s.st with trace := s.st.trace ++ [.staleAck] } }

/-- A duplicate data frame, with or without END, is acknowledged again and changes nothing else but the trace: it is neither
delivered nor compared with the frame accepted before (R139). -/
def Obligations.DuplicateIsAcknowledgedNotDelivered : Prop :=
  ∀ (s : State) (id flags : Byte) (p : Bytes) (i : Instr), i = .fData id flags p ∨ i = .fDataEnd id flags p →
    s.st.connState ≠ .closed → s.st.lastAcceptedId = some id →
    exec i s = .next { s with
      st := { s.st with
        txStream := s.st.txStream ++ buildFrame s.cfg.sync id 0x80 []
        trace := s.st.trace ++ [.duplicateFrame] } }

/-- A new data frame without END that fits the queue (R140): its id is recorded, the ACK carrying that id is emitted, its
payload, empty or not, is queued behind what is queued; nothing else changes. -/
def Obligations.NewDataIsAcknowledgedAndQueued : Prop :=
  ∀ (s : State) (id flags : Byte) (p : Bytes), s.st.connState ≠ .closed → s.st.lastAcceptedId ≠ some id →
    (∀ cap, s.cfg.deliveryCap = some cap → s.st.deliveryQueue.length + 1 ≤ cap) →
    exec (.fData id flags p) s = .next { s with
      st := { s.st with
        lastAcceptedId := some id
        txStream := s.st.txStream ++ buildFrame s.cfg.sync id 0x80 []
        deliveryQueue := s.st.deliveryQueue ++ [.payload p]
        trace := s.st.trace ++ [.accepted] } }

/-- A new data frame with END that fits the queue (R141, R144): as a data frame for id and ACK; its payload is queued if it is
not empty, then `EndOfStream`; `peer_end_received` is set; when this side's END is already acknowledged the connection closes
with cause `Normal` in the same event and keeps the queue. -/
def Obligations.NewEndIsAcknowledgedQueuedAndMayClose : Prop :=
  ∀ (s : State) (id flags : Byte) (p : Bytes), s.st.connState ≠ .closed → s.st.lastAcceptedId ≠ some id →
    let items : List Item := if p = [] then [.endOfStream] else [.payload p, .endOfStream]
    (∀ cap, s.cfg.deliveryCap = some cap → s.st.deliveryQueue.length + items.length ≤ cap) →
    let accepted : Conn := { s.st with
      lastAcceptedId := some id
      txStream := s.st.txStream ++ buildFrame s.cfg.sync id 0x80 []
      deliveryQueue := s.st.deliveryQueue ++ items
      peerEndReceived := true
      trace := s.st.trace ++ [.accepted] }
    (s.st.endAcked = false → exec (.fDataEnd id flags p) s = .next { s with st := accepted }) ∧
    (s.st.endAcked = true → exec (.fDataEnd id flags p) s = .next { s with
      st := { accepted with
        connState := .closed
        closeCause := some .normal
        outstandingFrame := none
        timerArmed := false
        retryCount := 0
        receiveBuffer := []
        chCloseReq := true } })

/-- A new data frame that does not fit the queue is dropped: no ACK, no id recorded, nothing queued, a tag in the trace
(R143). -/
def Obligations.OverflowingDataIsDropped : Prop :=
  ∀ (s : State) (id flags : Byte) (p : Bytes) (i : Instr) (need cap : Nat),
    (i = .fData id flags p ∧ need = 1) ∨ (i = .fDataEnd id flags p ∧ need = if p = [] then 1 else 2) →
    s.st.connState ≠ .closed → s.st.lastAcceptedId ≠ some id →
    s.cfg.deliveryCap = some cap → cap < s.st.deliveryQueue.length + need →
    exec i s = .next { s with st := { s.st with trace := s.st.trace ++ [.deliveryOverflow] } }

/-- In `Closed` a received frame is ignored and nothing is emitted (R126, R167). -/
def Obligations.ClosedIgnoresFramesAndEmitsNothing : Prop :=
  ∀ (s : State) (id flags : Byte) (p : Bytes) (i : Instr), s.st.connState = .closed →
    i ∈ [Instr.fRst id flags p, .fAck id flags p, .fDataEnd id flags p, .fData id flags p,
      .txData id p, .txDataEnd id p, .txAck id, .txRst] →
    exec i s = .next s

/-- The emissions `TX.DATA`, `TX.DATA_END`, `TX.ACK`, `TX.RST` while the connection is open append exactly their frame to the
TX stream (R69, R132, R133, R142, R162). -/
def Obligations.EmissionsAppendTheirFrame : Prop :=
  ∀ (s : State) (id : Byte) (p : Bytes), s.st.connState ≠ .closed → p.length ≤ 4096 →
    let emits : Instr → Bytes → Prop := fun i f =>
      exec i s = .next { s with st := { s.st with txStream := s.st.txStream ++ f } }
    emits (.txData id p) (buildFrame s.cfg.sync id 0x00 p) ∧
    emits (.txDataEnd id p) (buildFrame s.cfg.sync id 0x40 p) ∧
    emits (.txAck id) (buildFrame s.cfg.sync id 0x80 []) ∧
    emits .txRst (buildFrame s.cfg.sync 0 0x20 [])

/-! ### The Receive Reassembler -/

/-- In `Closed`, `RX_BYTES` is accepted and ignored (R126). -/
def Obligations.ClosedIgnoresReceivedBytes : Prop :=
  ∀ (s : State) (chunk : Bytes), s.st.connState = .closed →
    exec (.rxBytes chunk) s = .next { s with response := some .rxAccepted }

/-- A chunk that does not fit the buffer is not accepted and nothing changes; with an unbounded buffer this never happens
(R127). -/
def Obligations.ChunkThatDoesNotFitIsNotAccepted : Prop :=
  ∀ (s : State) (chunk : Bytes), s.st.connState ≠ .closed →
    (∀ cap, s.cfg.rxbufCap = some cap → cap < s.st.receiveBuffer.length + chunk.length →
      exec (.rxBytes chunk) s = .next { s with response := some .rxNotAccepted }) ∧
    (s.cfg.rxbufCap = none → ∃ t, exec (.rxBytes chunk) s = .next t ∧ t.response = some .rxAccepted)

/-- An empty chunk changes nothing when the buffer holds no complete candidate, as after every event (R128, with R28 I7 as its
premise). -/
def Obligations.EmptyChunkChangesNothing : Prop :=
  ∀ s : State, Machine.decodeFrame s.cfg.sync s.st.receiveBuffer = .incomplete →
    ∃ r, exec (.rxBytes []) s = .next { s with response := some r }

/-- `RX_BYTES` of one whole frame into an empty buffer runs that frame's class: the state it leaves is the one the class's
operation leaves (R120, R121, R135). -/
def Obligations.WholeFrameRunsItsClass : Prop :=
  ∀ (s : State) (id flags : Byte) (p : Bytes), p.length ≤ 4096 → s.st.connState ≠ .closed → s.st.receiveBuffer = [] →
    (∀ cap, s.cfg.rxbufCap = some cap → 14 + p.length ≤ cap) →
    ∃ i t, decode s.cfg.sync (.frameRx (buildFrame s.cfg.sync id flags p)) = .ok i ∧ exec i s = .next t ∧
      exec (.rxBytes (buildFrame s.cfg.sync id flags p)) s = .next { t with response := some .rxAccepted }

/-- `RX_BYTES` of a chunk that fits takes the candidate at the front of the buffer, and the rest is what `RX_BYTES` of no bytes
does after it (R120 to R122, R181, R182): `Incomplete` leaves the bytes; a framing error appends its tag, leaves `resync` of the
buffer, and changes nothing else; a frame is removed and its class's operation run, which may close the connection. A full
marker pair behind the first byte survives `resync`, and a whole frame behind damaged bytes in which no other frame could start
is found and run (R123). -/
def Obligations.ReceivedBytesAreTakenCandidateByCandidate : Prop :=
  ∀ (s : State) (chunk : Bytes), s.st.connState ≠ .closed →
    (∀ cap, s.cfg.rxbufCap = some cap → s.st.receiveBuffer.length + chunk.length ≤ cap) →
    let sync := s.cfg.sync
    let b := s.st.receiveBuffer ++ chunk
    let failed : FramingKind → State := fun kind => { s with st := { s.st with
      receiveBuffer := resync sync b
      trace := s.st.trace ++ [match kind with
        | .lengthOutOfRange => .lengthOutOfRange
        | .invalidSync => .invalidSync
        | .checksumMismatch => .checksumMismatch] } }
    let starts : Nat → Prop := fun j => (b.drop j).take 8 = (be32 sync ++ be32 sync).take (b.length - j)
    (Machine.decodeFrame sync b = .incomplete →
      exec (.rxBytes chunk) s = .next { s with
        response := some .rxAccepted
        st := { s.st with receiveBuffer := b } }) ∧
    (∀ kind, Machine.decodeFrame sync b = .framingError kind →
      exec (.rxBytes chunk) s = exec (.rxBytes []) (failed kind)) ∧
    (∀ id flags p n, Machine.decodeFrame sync b = .frame id flags p n →
      ∃ t, exec (classify id flags p) { s with st := { s.st with receiveBuffer := b.drop n } } = .next t ∧
        exec (.rxBytes chunk) s = exec (.rxBytes []) t) ∧
    (∀ before rest, before ≠ [] → b = before ++ (be32 sync ++ be32 sync) ++ rest →
      ∃ kept, resync sync b = kept ++ (be32 sync ++ be32 sync) ++ rest) ∧
    ∀ damaged id flags p rest kind, damaged ≠ [] → p.length ≤ 4096 → b = damaged ++ buildFrame sync id flags p ++ rest →
      Machine.decodeFrame sync b = .framingError kind → (∀ j, 1 ≤ j → j < damaged.length → ¬starts j) →
      ∃ t, exec (classify id flags p)
          { failed kind with st := { (failed kind).st with receiveBuffer := rest } } = .next t ∧
        exec (.rxBytes chunk) s = exec (.rxBytes []) t

/-- `resync` drops the first byte and stops at the first later position where a frame could start: what it leaves begins with
the marker pair, or is a shorter prefix of it, and no position it passed could (R122, R123). -/
def Obligations.ResyncStopsAtTheNextPossibleFrame : Prop :=
  ∀ (sync : BitVec 32) (b : Bytes), b ≠ [] →
    let starts : Nat → Prop := fun j => (b.drop j).take 8 = (be32 sync ++ be32 sync).take (b.length - j)
    ∃ k, 1 ≤ k ∧ k ≤ b.length ∧ resync sync b = b.drop k ∧ starts k ∧ ∀ j, 1 ≤ j → j < k → ¬starts j

/-- After `RX_BYTES` that leaves the connection open, the buffer holds no complete candidate and at most `MAX_FRAME - 1` bytes
(R125), whatever was in it before. -/
def Obligations.ReceivedBytesLeaveNoCompleteCandidate : Prop :=
  ∀ (s : State) (chunk : Bytes), s.st.connState ≠ .closed →
    (∀ cap, s.cfg.rxbufCap = some cap → s.st.receiveBuffer.length + chunk.length ≤ cap) →
    ∃ t, exec (.rxBytes chunk) s = .next t ∧ t.response = some .rxAccepted ∧
      (t.st.connState ≠ .closed →
        Machine.decodeFrame s.cfg.sync t.st.receiveBuffer = .incomplete ∧ t.st.receiveBuffer.length ≤ 4109)

/-- The extraction loop ends: `len(receive_buffer) + 1` iterations are enough, more change nothing (R124). -/
def Obligations.ExtractionEndsWithinTheBuffer : Prop :=
  ∀ (cfg : Config) (c : Conn) (k : Nat), c.receiveBuffer.length + 1 ≤ k →
    c.extract cfg k = c.extract cfg (c.receiveBuffer.length + 1)

/-- Cutting an undamaged stream differently does not matter (R129): frames of the same `SYNC` followed by a proper prefix of one
more, presented as any chunks one event each, leave the same Connection as the whole stream in one event. -/
def Obligations.ChunkingOfAnUndamagedStreamDoesNotMatter : Prop :=
  ∀ (s : State) (frames : List (Byte × Byte × Bytes)) (id flags : Byte) (p : Bytes) (n : Nat) (chunks : List Bytes),
    let wire : Byte × Byte × Bytes → Bytes := fun f => buildFrame s.cfg.sync f.1 f.2.1 f.2.2
    let stream := frames.flatMap wire ++ (wire (id, flags, p)).take n
    let events : List Bytes → State := fun cs => { s with slots := cs.map fun c => [{ op := 0x8, args := { bytes := c } }] }
    (∀ f ∈ frames, f.2.2.length ≤ 4096) → p.length ≤ 4096 → n < 14 + p.length → chunks.flatten = stream →
    s.st.receiveBuffer = [] → (∀ cap, s.cfg.rxbufCap = some cap → stream.length ≤ cap) →
    ∃ t u, core.run chunks.length (events chunks) = .next t ∧ core.run 1 (events [stream]) = .next u ∧ t.st = u.st

/-! ### Responses -/

/-- The codes of the conditions are those of R180's table; the status of a response is the code of the condition it reports,
and 0 for a success; `Accepted`, `Payload` and `EndOfStream` have the result tags 0, 1, 2 beside it (R76, R180). The channel's
"not accepted" (R127), for which the spec has no code, is left out (notes/assumptions/2.md). -/
def Obligations.StatusCodesAndResultTagsAreTheTables : Prop :=
  [Condition.invalidSync, .checksumMismatch, .framingIncomplete, .staleAck, .duplicateFrame, .retriesExhausted, .peerReset,
      .connectionClosed, .lengthOutOfRange, .payloadTooLong, .busy, .pending, .illegalCommand, .deliveryOverflow].map
    Condition.code = [1, 2, 3, 4, 5, 6, 7, 8, 9, 10, 11, 12, 13, 14] ∧
  (let reports : Response → Condition → BitVec 4 → Prop := fun r k code =>
    r.condition = some k ∧ r.status = code ∧ r.resultTag = none
  reports (.decoded (.framingError .invalidSync)) .invalidSync 1 ∧
  reports (.decoded (.framingError .checksumMismatch)) .checksumMismatch 2 ∧
  reports (.decoded .incomplete) .framingIncomplete 3 ∧
  reports (.fatal .retriesExhausted) .retriesExhausted 6 ∧
  reports (.fatal .peerReset) .peerReset 7 ∧
  reports (.fatal .connectionClosed) .connectionClosed 8 ∧
  reports (.decoded (.framingError .lengthOutOfRange)) .lengthOutOfRange 9 ∧
  reports (.refused .payloadTooLong) .payloadTooLong 10 ∧
  reports .busy .busy 11 ∧
  reports .pending .pending 12 ∧
  reports (.refused .illegalCommand) .illegalCommand 13) ∧
  let succeeds : Response → Option (BitVec 2) → Prop := fun r tag =>
    r.condition = none ∧ r.status = 0 ∧ r.resultTag = tag
  succeeds .accepted (some 0) ∧ succeeds .endOfStream (some 2) ∧ succeeds .rxAccepted none ∧
  (∀ b, succeeds (.payload b) (some 1) ∧ succeeds (.encoded b) none) ∧
  (∀ v, succeeds (.checksum v) none) ∧ (∀ v, succeeds (.register v) none) ∧
  ∀ id flags p n, succeeds (.decoded (.frame id flags p n)) none

/-! ### Timer, termination, reset -/

/-- An expiry while the timer is not armed does nothing (R163). That the response is then empty, the event having none (R74), is
the model's own (notes/assumptions/2.md). -/
def Obligations.ExpiryOfADisarmedTimerDoesNothing : Prop :=
  ∀ s : State, s.st.timerArmed = false → exec .timerExpire s = .next { s with response := none }

/-- An expiry within the retry ceiling writes the outstanding frame again, unchanged, and counts it; the timer stays armed and
nothing else of the Connection changes (R161). The empty response of an event that has none (R74) is the model's own
(notes/assumptions/2.md). -/
def Obligations.ExpiryRetransmitsTheSameBytes : Prop :=
  ∀ (s : State) (f : Bytes), s.st.timerArmed = true → s.st.outstandingFrame = some f →
    s.st.retryCount.toNat + 1 ≤ s.cfg.retryCeiling.toNat →
    exec .timerExpire s = .next { s with
      response := none
      st := { s.st with retryCount := s.st.retryCount + 1, txStream := s.st.txStream ++ f } }

/-- The expiry that exceeds the ceiling retransmits nothing: one RST frame is emitted and the connection closes with cause and
pending fatal condition `RetriesExhausted`, the queue emptied (R162, R169). The empty response of an event that has none (R74)
is the model's own (notes/assumptions/2.md). -/
def Obligations.ExpiryBeyondTheCeilingAborts : Prop :=
  ∀ s : State, s.st.timerArmed = true → s.cfg.retryCeiling.toNat < s.st.retryCount.toNat + 1 →
    s.st.retryCount.toNat < 255 →
    exec .timerExpire s = .next { s with
      response := none
      st := { s.st with
        txStream := s.st.txStream ++ buildFrame s.cfg.sync 0 0x20 []
        connState := .closed
        closeCause := some .retriesExhausted
        fatalPending := some .retriesExhausted
        outstandingFrame := none
        timerArmed := false
        retryCount := 0
        receiveBuffer := []
        deliveryQueue := []
        chCloseReq := true
        trace := s.st.trace ++ [.retriesExhausted] } }

/-- An unanswered frame is written at most `1 + RETRY_CEILING` times (R161, R162, R224): from a just-sent frame, `k` expiries up
to the ceiling write `k` identical copies; one more writes one RST frame, and nothing else, and closes. -/
def Obligations.UnansweredFrameIsRetriedUpToTheCeiling : Prop :=
  ∀ (s : State) (f : Bytes) (rest : List (List EventWord)), s.st.timerArmed = true → s.st.outstandingFrame = some f →
    s.st.retryCount = 0 → s.cfg.retryCeiling.toNat < 255 →
    let expiries : Nat → State := fun k => { s with slots := List.replicate k [{ op := 0xA }] ++ rest }
    let c := s.cfg.retryCeiling.toNat
    (∀ k, k ≤ c → ∃ r, core.run k (expiries k) = .next { s with
      slots := rest
      response := r
      st := { s.st with
        retryCount := BitVec.ofNat 8 k
        txStream := s.st.txStream ++ (List.replicate k f).flatten } }) ∧
    ∃ t, core.run (c + 1) (expiries (c + 1)) = .next t ∧ t.st.connState = .closed ∧
      t.st.closeCause = some .retriesExhausted ∧ t.st.fatalPending = some .retriesExhausted ∧
      t.st.txStream = s.st.txStream ++ (List.replicate c f).flatten ++ buildFrame s.cfg.sync 0 0x20 []

/-- `CH_CLOSE` closes an open connection with cause `ChannelClosed`, emits nothing and keeps the queue; in `Closed` it does
nothing (R168, R169). The empty response of an event that has none (R74) is the model's own (notes/assumptions/2.md). -/
def Obligations.ChannelClosureClosesAndKeepsTheQueue : Prop :=
  ∀ s : State,
    (s.st.connState ≠ .closed → exec .chClose s = .next { s with
      response := none
      st := { s.st with
        connState := .closed
        closeCause := some .channelClosed
        outstandingFrame := none
        timerArmed := false
        retryCount := 0
        receiveBuffer := []
        chCloseReq := true } }) ∧
    (s.st.connState = .closed → exec .chClose s = .next { s with response := none })

/-- `RESET` gives every field of the Connection the value of R29's table, whatever the state before (R171). The configuration
keeps its hardwired values (R211); the events still to come and the empty response are the model's own
(notes/assumptions/1.md, 2.md). -/
def Obligations.ResetGivesEveryFieldItsResetValue : Prop :=
  ∀ s : State, exec .reset s = .next
    { cfg := s.cfg
      slots := s.slots
      response := none
      st :=
        { connState := .idle, nextSendId := 0, lastAcceptedId := none, outstandingFrame := none, retryCount := 0
          timerArmed := false, receiveBuffer := [], deliveryQueue := [], endSent := false, endAcked := false
          peerEndReceived := false, closeCause := none, fatalPending := none, txStream := [], chCloseReq := false
          trace := [] } }

/-- Event codes `0x0` and `0xB` to `0xE` are reserved: an event with such a code, whatever its operands, is answered with
`Refused(IllegalCommand)` and changes nothing else (R75). -/
def Obligations.ReservedCodesAreRefused : Prop :=
  let rows : List Instr := [.reserved0, .reservedB, .reservedC, .reservedD, .reservedE]
  (∀ e : EventWord, e.op ∈ [0x0#4, 0xB#4, 0xC#4, 0xD#4, 0xE#4] ↔ decodeEvent e ∈ rows) ∧
  ∀ (s : State) (i : Instr), i ∈ rows → exec i s = .next { s with response := some (.refused .illegalCommand) }

/-! ### The machine as a whole -/

/-- The machine after reset: every field of the Connection has the value of R29's table. -/
def Obligations.ResetStateIsTheTable : Prop :=
  State.reset.st =
    { connState := .idle, nextSendId := 0, lastAcceptedId := none, outstandingFrame := none, retryCount := 0
      timerArmed := false, receiveBuffer := [], deliveryQueue := [], endSent := false, endAcked := false
      peerEndReceived := false, closeCause := none, fatalPending := none, txStream := [], chCloseReq := false
      trace := [] }

/-- A step runs the decoded operation: with the event `e` alone in the next slot, a step is the operation that `e`'s word
decodes to, on the state without that slot. With no event presented a step changes nothing, which is the model's reading of
"waits for the first event" (notes/assumptions/1.md). -/
def Obligations.StepRunsTheDecodedEvent : Prop :=
  ∀ s : State,
    (∀ e rest i, s.slots = [e] :: rest → decode s.cfg.sync (.cmd e) = .ok i →
      step s = exec i { s with slots := rest }) ∧
    (s.slots = [] → step s = .next s)

/-- Events presented in one slot are taken one at a time in the arbiter's order, `RESET`, `RX_BYTES`, `CH_CLOSE`,
`TIMER_EXPIRE`, host command (R192); the others keep their places. R192 is silent on the rest: that equal ranks are taken in
the order presented, that a reserved code ranks as a host command, and the slot itself are the model's choices
(notes/assumptions/1.md). -/
def Obligations.SlotIsServedInTheArbitersOrder : Prop :=
  ∀ (s : State) (slot : List EventWord) (more : List (List EventWord)), s.slots = slot :: more → slot ≠ [] →
    let rank : EventWord → Nat := fun e => match e.op.toNat with | 15 => 0 | 8 => 1 | 9 => 2 | 10 => 3 | _ => 4
    ∃ before e after, slot = before ++ e :: after ∧ (∀ x ∈ before, rank e < rank x) ∧ (∀ x ∈ after, rank e ≤ rank x) ∧
      step s = exec (decodeEvent e)
        { s with slots := if before ++ after = [] then more else (before ++ after) :: more }

/-- Every operation answers a next state in every state, and so does every step: the machine never stops, since "a condition is
never an unwinding exception" (R9) and `Closed` answers every later event (R167). That the model therefore has no fault and
refuses no operation is its inference (notes/assumptions/11.md); the spec's `Refused(kind)` is a response in a next state. That no
operation touches the configuration or the schedule, and that a step, which takes its event out of the schedule, keeps the
configuration, is the model's own (notes/assumptions/1.md, 3.md, 15.md). -/
def Obligations.EveryStepAnswersANextState : Prop :=
  (∀ (i : Instr) (s : State), ∃ t, exec i s = .next t ∧ t.cfg = s.cfg ∧ t.slots = s.slots) ∧
  ∀ s : State, ∃ t, step s = .next t ∧ t.cfg = s.cfg

/-- The invariants I1 to I8 of R28, and of I9 that a queued `EndOfStream` means the peer's END was accepted
(notes/assumptions/18.md), hold at reset, with the default configuration (R7; notes/assumptions/15.md). -/
def Obligations.ResetHasTheInvariants : Prop := State.reset.Inv

/-- Every step keeps the invariants I1 to I8 of R28, and of I9 that a queued `EndOfStream` means the peer's END was accepted
(notes/assumptions/18.md). -/
def Obligations.EveryStepKeepsTheInvariants : Prop :=
  ∀ s t : State, s.Inv → step s = .next t → t.Inv

/-- Every step but a `RESET` appends to the TX stream whole frames of the four shapes of R69, and nothing else (R47, R51). -/
def Obligations.OnlyWholeFramesOfTheFourShapesAreEmitted : Prop :=
  ∀ (s t : State) (i : Instr), s.Inv → i.wf = true → i ≠ .reset → exec i s = .next t →
    ∃ frames : List (Instr × Bytes),
      (∀ f ∈ frames, f.1.wf = true ∧ encode s.cfg.sync f.1 = .frameTx f.2) ∧
      t.st.txStream = s.st.txStream ++ (frames.map Prod.snd).flatten

/-- Nothing but `RESET` takes back what was emitted or recorded, or clears a termination flag (R19, R21). -/
def Obligations.HistoryAndTerminationFlagsOnlyGrow : Prop :=
  ∀ (s t : State) (i : Instr), i ≠ .reset → exec i s = .next t →
    s.st.txStream <+: t.st.txStream ∧ s.st.trace <+: t.st.trace ∧
    (s.st.endSent = true → t.st.endSent = true) ∧ (s.st.endAcked = true → t.st.endAcked = true) ∧
    (s.st.peerEndReceived = true → t.st.peerEndReceived = true)

/-- `Closed` is terminal (R167, R195): no operation but `RESET` changes anything there except that `RECEIVE` takes the pending
fatal condition or the first item. The premise that the timer is not armed is R28's I2. -/
def Obligations.ClosedIsTerminal : Prop :=
  ∀ (s t : State) (i : Instr), i ≠ .reset → s.st.connState = .closed → s.st.timerArmed = false → exec i s = .next t →
    t.st = s.st ∨
    (i = .receive ∧ (t.st = { s.st with fatalPending := none } ∨
      ∃ item rest, s.st.deliveryQueue = item :: rest ∧ t.st = { s.st with deliveryQueue := rest }))

/-- The transition table of R165. From a good state, an operation other than `RX_BYTES` that changes `conn_state` is one of the
table's rows. `RX_BYTES` of any chunk does to the Connection, but for `receive_buffer` and the trace, what some received frames
run one after another do (R121, R135), and `conn_state` changes by it only through a matching ACK, an RST, or a frame that
completes the END exchange. -/
def Obligations.StateChangesAreTheTransitionTable : Prop :=
  ∀ (s t : State) (i : Instr), s.Inv → exec i s = .next t →
    ((∀ chunk, i ≠ .rxBytes chunk) → t.st.connState ≠ s.st.connState →
      (s.st.connState = .idle ∧ t.st.connState = .awaitingAck ∧ t.response = some .accepted ∧
        ∃ p, i = .send p ∨ i = .sendEnd p) ∨
      (s.st.connState = .idle ∧ s.st.endAcked = true ∧ t.st.connState = .closed ∧ t.st.closeCause = some .normal ∧
        ∃ id flags p, i = .fDataEnd id flags p) ∨
      (s.st.connState ≠ .closed ∧ t.st.connState = .closed ∧ t.st.closeCause = some .peerReset ∧
        ∃ id flags p, i = .fRst id flags p) ∨
      (s.st.connState ≠ .closed ∧ t.st.connState = .closed ∧ t.st.closeCause = some .channelClosed ∧ i = .chClose) ∨
      (s.st.connState = .awaitingAck ∧ (∃ flags p, i = .fAck s.st.nextSendId flags p) ∧
        (if t.st.endAcked = true ∧ s.st.peerEndReceived = true
          then t.st.connState = .closed ∧ t.st.closeCause = some .normal
          else t.st.connState = .idle)) ∨
      (s.st.connState = .awaitingAck ∧ i = .timerExpire ∧ s.st.retryCount = s.cfg.retryCeiling ∧
        t.st.connState = .closed ∧ t.st.closeCause = some .retriesExhausted) ∨
      (i = .reset ∧ t.st.connState = .idle)) ∧
    ∀ chunk, i = .rxBytes chunk → ∃ (frames : List Instr) (u : State),
      (∀ j ∈ frames, isReceivedFrame j = true ∧ j.wf = true) ∧ execAll frames s = .next u ∧
      t.st = { u.st with receiveBuffer := t.st.receiveBuffer, trace := t.st.trace } ∧
      (t.st.connState ≠ s.st.connState →
        let acked := s.st.connState = .awaitingAck ∧ ∃ flags p, .fAck s.st.nextSendId flags p ∈ frames
        (t.st.connState = .idle ∧ acked) ∨
        (s.st.connState ≠ .closed ∧ t.st.connState = .closed ∧ t.st.closeCause = some .peerReset ∧
          ∃ id flags p, .fRst id flags p ∈ frames) ∨
        (t.st.connState = .closed ∧ t.st.closeCause = some .normal ∧ t.st.endAcked = true ∧ t.st.peerEndReceived = true ∧
          (acked ∨ (s.st.connState = .idle ∧ s.st.endAcked = true ∧ ∃ id flags p, .fDataEnd id flags p ∈ frames))))

/-- Who writes what (R12 to R16, R19, R24, R54, R164), apart from `RESET`. `RX_BYTES` writes as the received frames it runs, and
the trace has their tags. `next_send_id` and `end_acked` are written by a matching ACK only, `last_accepted_id` and
`peer_end_received` by an accepted data frame only, `end_sent` by an accepted `SEND.END` only. `outstanding_frame` becomes the new
frame by an accepted `SEND` or `SEND.END` from `Idle` and is else only dropped, and the timer is armed by the former and disarmed
with the latter, by a matching ACK or a closure. `retry_count` is counted up by an expiry and set to 0 by the three others. -/
def Obligations.FieldsHaveTheirWritersOnly : Prop :=
  ∀ (s t : State) (i : Instr), i ≠ .reset → exec i s = .next t →
    let received := ∃ chunk, i = .rxBytes chunk
    let recorded : Tag → Prop := fun tag => ∃ tags, t.st.trace = s.st.trace ++ tags ∧ tag ∈ tags
    let acked := recorded .ackMatched ∧ (received ∨ ∃ id flags p, i = .fAck id flags p)
    let closed := t.st.connState = .closed ∧ t.st.closeCause ≠ none ∧
      (received ∨ i = .chClose ∨ i = .timerExpire ∨
        ∃ id flags p, i = .fRst id flags p ∨ i = .fAck id flags p ∨ i = .fDataEnd id flags p)
    let sent : Instr → Prop := fun j => i = j ∧ s.st.connState = .idle ∧ t.st.connState = .awaitingAck ∧
      t.response = some .accepted
    (t.st.nextSendId ≠ s.st.nextSendId → acked) ∧
    (t.st.lastAcceptedId ≠ s.st.lastAcceptedId → recorded .accepted ∧
      (received ∨ ∃ id flags p, i = .fData id flags p ∨ i = .fDataEnd id flags p)) ∧
    (t.st.endSent ≠ s.st.endSent → ∃ p, sent (.sendEnd p)) ∧
    (t.st.endAcked ≠ s.st.endAcked → acked) ∧
    (t.st.peerEndReceived ≠ s.st.peerEndReceived → recorded .accepted ∧
      (received ∨ ∃ id flags p, i = .fDataEnd id flags p)) ∧
    (t.st.outstandingFrame ≠ s.st.outstandingFrame →
      (∃ p, (sent (.send p) ∧ t.st.outstandingFrame = some (buildFrame s.cfg.sync s.st.nextSendId 0x00 p)) ∨
        (sent (.sendEnd p) ∧ t.st.outstandingFrame = some (buildFrame s.cfg.sync s.st.nextSendId 0x40 p))) ∨
      (t.st.outstandingFrame = none ∧ (acked ∨ closed))) ∧
    (t.st.timerArmed ≠ s.st.timerArmed →
      (t.st.timerArmed = true ∧ ∃ p, sent (.send p) ∨ sent (.sendEnd p)) ∨
      (t.st.timerArmed = false ∧ (acked ∨ closed))) ∧
    (t.st.retryCount ≠ s.st.retryCount →
      (t.st.retryCount = s.st.retryCount + 1 ∧ i = .timerExpire ∧ s.st.timerArmed = true) ∨
      (t.st.retryCount = 0 ∧ ((∃ p, sent (.send p) ∨ sent (.sendEnd p)) ∨ acked ∨ closed)))

/-- No rule reads `trace` (R22): an operation on a state with another trace answers the same and leaves the same state but for
the trace. -/
def Obligations.NoOperationReadsTheTrace : Prop :=
  ∀ (s t : State) (i : Instr) (tags : List Tag), exec i s = .next t →
    ∃ u, exec i { s with st := { s.st with trace := tags } } = .next u ∧
      { u with st := { u.st with trace := t.st.trace } } = t

/-- One payload across the channel (R130, R140, R139, R137): `a` sends, `b` receives the frame and queues the payload once, a
second copy of the frame only makes `b` acknowledge again, and the ACK returns `a` to `Idle` with the other id. -/
def Obligations.OnePayloadCrossesTheChannelOnce : Prop :=
  ∀ (a b : State) (p : Bytes), a.cfg.sync = b.cfg.sync → p.length ≤ 4096 →
    a.st.connState = .idle → a.st.endAcked = false → a.st.receiveBuffer = [] →
    (∀ cap, a.cfg.rxbufCap = some cap → 14 ≤ cap) →
    b.st.connState ≠ .closed → b.st.receiveBuffer = [] → b.st.lastAcceptedId ≠ some a.st.nextSendId →
    (∀ cap, b.cfg.rxbufCap = some cap → 14 + p.length ≤ cap) →
    (∀ cap, b.cfg.deliveryCap = some cap → b.st.deliveryQueue.length + 1 ≤ cap) →
    ∃ f g a₁ b₁ b₂ a₂,
      exec (.send p) a = .next a₁ ∧ a₁.st.txStream = a.st.txStream ++ f ∧
      exec (.rxBytes f) b = .next b₁ ∧ b₁.st.txStream = b.st.txStream ++ g ∧
      b₁.st.deliveryQueue = b.st.deliveryQueue ++ [.payload p] ∧
      exec (.rxBytes f) b₁ = .next b₂ ∧ b₂.st.txStream = b₁.st.txStream ++ g ∧
      b₂.st.deliveryQueue = b₁.st.deliveryQueue ∧
      exec (.rxBytes g) a₁ = .next a₂ ∧ a₂.st.connState = .idle ∧ a₂.st.outstandingFrame = none ∧
      a₂.st.timerArmed = false ∧ a₂.st.nextSendId = a.st.nextSendId ^^^ 1
end

