-- ==== Sys2Proof/Laws/State.lean ====
section
/-! SUPPORT. What each update of the state does to each field: one lemma per field per update, each true by `rfl`. -/

namespace Sys2Proof.Machine


/-! ### `emit` -/

@[simp] theorem Conn.emit_connState (b : Bytes) (c : Conn) : (c.emit b).connState = c.connState := rfl
@[simp] theorem Conn.emit_nextSendId (b : Bytes) (c : Conn) : (c.emit b).nextSendId = c.nextSendId := rfl
@[simp] theorem Conn.emit_lastAcceptedId (b : Bytes) (c : Conn) : (c.emit b).lastAcceptedId = c.lastAcceptedId := rfl
@[simp] theorem Conn.emit_outstandingFrame (b : Bytes) (c : Conn) : (c.emit b).outstandingFrame = c.outstandingFrame := rfl
@[simp] theorem Conn.emit_retryCount (b : Bytes) (c : Conn) : (c.emit b).retryCount = c.retryCount := rfl
@[simp] theorem Conn.emit_timerArmed (b : Bytes) (c : Conn) : (c.emit b).timerArmed = c.timerArmed := rfl
@[simp] theorem Conn.emit_receiveBuffer (b : Bytes) (c : Conn) : (c.emit b).receiveBuffer = c.receiveBuffer := rfl
@[simp] theorem Conn.emit_deliveryQueue (b : Bytes) (c : Conn) : (c.emit b).deliveryQueue = c.deliveryQueue := rfl
@[simp] theorem Conn.emit_endSent (b : Bytes) (c : Conn) : (c.emit b).endSent = c.endSent := rfl
@[simp] theorem Conn.emit_endAcked (b : Bytes) (c : Conn) : (c.emit b).endAcked = c.endAcked := rfl
@[simp] theorem Conn.emit_peerEndReceived (b : Bytes) (c : Conn) : (c.emit b).peerEndReceived = c.peerEndReceived := rfl
@[simp] theorem Conn.emit_closeCause (b : Bytes) (c : Conn) : (c.emit b).closeCause = c.closeCause := rfl
@[simp] theorem Conn.emit_fatalPending (b : Bytes) (c : Conn) : (c.emit b).fatalPending = c.fatalPending := rfl
@[simp] theorem Conn.emit_txStream (b : Bytes) (c : Conn) : (c.emit b).txStream = c.txStream ++ b := rfl
@[simp] theorem Conn.emit_chCloseReq (b : Bytes) (c : Conn) : (c.emit b).chCloseReq = c.chCloseReq := rfl
@[simp] theorem Conn.emit_trace (b : Bytes) (c : Conn) : (c.emit b).trace = c.trace := rfl

/-! ### `raise` -/

@[simp] theorem Conn.record_connState (t : Tag) (c : Conn) : (c.record t).connState = c.connState := rfl
@[simp] theorem Conn.record_nextSendId (t : Tag) (c : Conn) : (c.record t).nextSendId = c.nextSendId := rfl
@[simp] theorem Conn.record_lastAcceptedId (t : Tag) (c : Conn) : (c.record t).lastAcceptedId = c.lastAcceptedId := rfl
@[simp] theorem Conn.record_outstandingFrame (t : Tag) (c : Conn) : (c.record t).outstandingFrame = c.outstandingFrame := rfl
@[simp] theorem Conn.record_retryCount (t : Tag) (c : Conn) : (c.record t).retryCount = c.retryCount := rfl
@[simp] theorem Conn.record_timerArmed (t : Tag) (c : Conn) : (c.record t).timerArmed = c.timerArmed := rfl
@[simp] theorem Conn.record_receiveBuffer (t : Tag) (c : Conn) : (c.record t).receiveBuffer = c.receiveBuffer := rfl
@[simp] theorem Conn.record_deliveryQueue (t : Tag) (c : Conn) : (c.record t).deliveryQueue = c.deliveryQueue := rfl
@[simp] theorem Conn.record_endSent (t : Tag) (c : Conn) : (c.record t).endSent = c.endSent := rfl
@[simp] theorem Conn.record_endAcked (t : Tag) (c : Conn) : (c.record t).endAcked = c.endAcked := rfl
@[simp] theorem Conn.record_peerEndReceived (t : Tag) (c : Conn) : (c.record t).peerEndReceived = c.peerEndReceived := rfl
@[simp] theorem Conn.record_closeCause (t : Tag) (c : Conn) : (c.record t).closeCause = c.closeCause := rfl
@[simp] theorem Conn.record_fatalPending (t : Tag) (c : Conn) : (c.record t).fatalPending = c.fatalPending := rfl
@[simp] theorem Conn.record_txStream (t : Tag) (c : Conn) : (c.record t).txStream = c.txStream := rfl
@[simp] theorem Conn.record_chCloseReq (t : Tag) (c : Conn) : (c.record t).chCloseReq = c.chCloseReq := rfl
@[simp] theorem Conn.record_trace (t : Tag) (c : Conn) : (c.record t).trace = c.trace ++ [t] := rfl

/-! ### `CLOSE(cause)` -/

@[simp] theorem Conn.close_connState (k : Cause) (c : Conn) : (c.close k).connState = .closed := rfl
@[simp] theorem Conn.close_nextSendId (k : Cause) (c : Conn) : (c.close k).nextSendId = c.nextSendId := rfl
@[simp] theorem Conn.close_lastAcceptedId (k : Cause) (c : Conn) : (c.close k).lastAcceptedId = c.lastAcceptedId := rfl
@[simp] theorem Conn.close_outstandingFrame (k : Cause) (c : Conn) : (c.close k).outstandingFrame = none := rfl
@[simp] theorem Conn.close_retryCount (k : Cause) (c : Conn) : (c.close k).retryCount = 0 := rfl
@[simp] theorem Conn.close_timerArmed (k : Cause) (c : Conn) : (c.close k).timerArmed = false := rfl
@[simp] theorem Conn.close_receiveBuffer (k : Cause) (c : Conn) : (c.close k).receiveBuffer = [] := rfl
@[simp] theorem Conn.close_deliveryQueue (k : Cause) (c : Conn) : (c.close k).deliveryQueue = if k.abort = none then c.deliveryQueue else [] := rfl
@[simp] theorem Conn.close_endSent (k : Cause) (c : Conn) : (c.close k).endSent = c.endSent := rfl
@[simp] theorem Conn.close_endAcked (k : Cause) (c : Conn) : (c.close k).endAcked = c.endAcked := rfl
@[simp] theorem Conn.close_peerEndReceived (k : Cause) (c : Conn) : (c.close k).peerEndReceived = c.peerEndReceived := rfl
@[simp] theorem Conn.close_closeCause (k : Cause) (c : Conn) : (c.close k).closeCause = some k := rfl
@[simp] theorem Conn.close_fatalPending (k : Cause) (c : Conn) : (c.close k).fatalPending = if k.abort = none then c.fatalPending else k.abort := rfl
@[simp] theorem Conn.close_txStream (k : Cause) (c : Conn) : (c.close k).txStream = c.txStream := rfl
@[simp] theorem Conn.close_chCloseReq (k : Cause) (c : Conn) : (c.close k).chCloseReq = true := rfl
@[simp] theorem Conn.close_trace (k : Cause) (c : Conn) : (c.close k).trace = c.trace := rfl

/-! ### an accepted `SEND` -/

@[simp] theorem Conn.transmit_connState (f : Bytes) (e : Bool) (c : Conn) : (c.transmit f e).connState = .awaitingAck := rfl
@[simp] theorem Conn.transmit_nextSendId (f : Bytes) (e : Bool) (c : Conn) : (c.transmit f e).nextSendId = c.nextSendId := rfl
@[simp] theorem Conn.transmit_lastAcceptedId (f : Bytes) (e : Bool) (c : Conn) : (c.transmit f e).lastAcceptedId = c.lastAcceptedId := rfl
@[simp] theorem Conn.transmit_outstandingFrame (f : Bytes) (e : Bool) (c : Conn) : (c.transmit f e).outstandingFrame = some f := rfl
@[simp] theorem Conn.transmit_retryCount (f : Bytes) (e : Bool) (c : Conn) : (c.transmit f e).retryCount = 0 := rfl
@[simp] theorem Conn.transmit_timerArmed (f : Bytes) (e : Bool) (c : Conn) : (c.transmit f e).timerArmed = true := rfl
@[simp] theorem Conn.transmit_receiveBuffer (f : Bytes) (e : Bool) (c : Conn) : (c.transmit f e).receiveBuffer = c.receiveBuffer := rfl
@[simp] theorem Conn.transmit_deliveryQueue (f : Bytes) (e : Bool) (c : Conn) : (c.transmit f e).deliveryQueue = c.deliveryQueue := rfl
@[simp] theorem Conn.transmit_endSent (f : Bytes) (e : Bool) (c : Conn) : (c.transmit f e).endSent = (c.endSent || e) := rfl
@[simp] theorem Conn.transmit_endAcked (f : Bytes) (e : Bool) (c : Conn) : (c.transmit f e).endAcked = c.endAcked := rfl
@[simp] theorem Conn.transmit_peerEndReceived (f : Bytes) (e : Bool) (c : Conn) : (c.transmit f e).peerEndReceived = c.peerEndReceived := rfl
@[simp] theorem Conn.transmit_closeCause (f : Bytes) (e : Bool) (c : Conn) : (c.transmit f e).closeCause = c.closeCause := rfl
@[simp] theorem Conn.transmit_fatalPending (f : Bytes) (e : Bool) (c : Conn) : (c.transmit f e).fatalPending = c.fatalPending := rfl
@[simp] theorem Conn.transmit_txStream (f : Bytes) (e : Bool) (c : Conn) : (c.transmit f e).txStream = c.txStream ++ f := rfl
@[simp] theorem Conn.transmit_chCloseReq (f : Bytes) (e : Bool) (c : Conn) : (c.transmit f e).chCloseReq = c.chCloseReq := rfl
@[simp] theorem Conn.transmit_trace (f : Bytes) (e : Bool) (c : Conn) : (c.transmit f e).trace = c.trace := rfl

/-! ### a matching ACK -/

@[simp] theorem Conn.retire_connState (e : Bool) (c : Conn) : (c.retire e).connState = .idle := rfl
@[simp] theorem Conn.retire_nextSendId (e : Bool) (c : Conn) : (c.retire e).nextSendId = c.nextSendId ^^^ 1 := rfl
@[simp] theorem Conn.retire_lastAcceptedId (e : Bool) (c : Conn) : (c.retire e).lastAcceptedId = c.lastAcceptedId := rfl
@[simp] theorem Conn.retire_outstandingFrame (e : Bool) (c : Conn) : (c.retire e).outstandingFrame = none := rfl
@[simp] theorem Conn.retire_retryCount (e : Bool) (c : Conn) : (c.retire e).retryCount = 0 := rfl
@[simp] theorem Conn.retire_timerArmed (e : Bool) (c : Conn) : (c.retire e).timerArmed = false := rfl
@[simp] theorem Conn.retire_receiveBuffer (e : Bool) (c : Conn) : (c.retire e).receiveBuffer = c.receiveBuffer := rfl
@[simp] theorem Conn.retire_deliveryQueue (e : Bool) (c : Conn) : (c.retire e).deliveryQueue = c.deliveryQueue := rfl
@[simp] theorem Conn.retire_endSent (e : Bool) (c : Conn) : (c.retire e).endSent = c.endSent := rfl
@[simp] theorem Conn.retire_endAcked (e : Bool) (c : Conn) : (c.retire e).endAcked = (c.endAcked || e) := rfl
@[simp] theorem Conn.retire_peerEndReceived (e : Bool) (c : Conn) : (c.retire e).peerEndReceived = c.peerEndReceived := rfl
@[simp] theorem Conn.retire_closeCause (e : Bool) (c : Conn) : (c.retire e).closeCause = c.closeCause := rfl
@[simp] theorem Conn.retire_fatalPending (e : Bool) (c : Conn) : (c.retire e).fatalPending = c.fatalPending := rfl
@[simp] theorem Conn.retire_txStream (e : Bool) (c : Conn) : (c.retire e).txStream = c.txStream := rfl
@[simp] theorem Conn.retire_chCloseReq (e : Bool) (c : Conn) : (c.retire e).chCloseReq = c.chCloseReq := rfl
@[simp] theorem Conn.retire_trace (e : Bool) (c : Conn) : (c.retire e).trace = c.trace ++ [.ackMatched] := rfl

/-! ### an accepted data frame -/

@[simp] theorem Conn.accept_connState (sync : BitVec 32) (id : Byte) (items : List Item) (c : Conn) : (c.accept sync id items).connState = c.connState := rfl
@[simp] theorem Conn.accept_nextSendId (sync : BitVec 32) (id : Byte) (items : List Item) (c : Conn) : (c.accept sync id items).nextSendId = c.nextSendId := rfl
@[simp] theorem Conn.accept_lastAcceptedId (sync : BitVec 32) (id : Byte) (items : List Item) (c : Conn) : (c.accept sync id items).lastAcceptedId = some id := rfl
@[simp] theorem Conn.accept_outstandingFrame (sync : BitVec 32) (id : Byte) (items : List Item) (c : Conn) : (c.accept sync id items).outstandingFrame = c.outstandingFrame := rfl
@[simp] theorem Conn.accept_retryCount (sync : BitVec 32) (id : Byte) (items : List Item) (c : Conn) : (c.accept sync id items).retryCount = c.retryCount := rfl
@[simp] theorem Conn.accept_timerArmed (sync : BitVec 32) (id : Byte) (items : List Item) (c : Conn) : (c.accept sync id items).timerArmed = c.timerArmed := rfl
@[simp] theorem Conn.accept_receiveBuffer (sync : BitVec 32) (id : Byte) (items : List Item) (c : Conn) : (c.accept sync id items).receiveBuffer = c.receiveBuffer := rfl
@[simp] theorem Conn.accept_deliveryQueue (sync : BitVec 32) (id : Byte) (items : List Item) (c : Conn) : (c.accept sync id items).deliveryQueue = c.deliveryQueue ++ items := rfl
@[simp] theorem Conn.accept_endSent (sync : BitVec 32) (id : Byte) (items : List Item) (c : Conn) : (c.accept sync id items).endSent = c.endSent := rfl
@[simp] theorem Conn.accept_endAcked (sync : BitVec 32) (id : Byte) (items : List Item) (c : Conn) : (c.accept sync id items).endAcked = c.endAcked := rfl
@[simp] theorem Conn.accept_peerEndReceived (sync : BitVec 32) (id : Byte) (items : List Item) (c : Conn) : (c.accept sync id items).peerEndReceived = c.peerEndReceived := rfl
@[simp] theorem Conn.accept_closeCause (sync : BitVec 32) (id : Byte) (items : List Item) (c : Conn) : (c.accept sync id items).closeCause = c.closeCause := rfl
@[simp] theorem Conn.accept_fatalPending (sync : BitVec 32) (id : Byte) (items : List Item) (c : Conn) : (c.accept sync id items).fatalPending = c.fatalPending := rfl
@[simp] theorem Conn.accept_txStream (sync : BitVec 32) (id : Byte) (items : List Item) (c : Conn) : (c.accept sync id items).txStream = c.txStream ++ ackFrame sync id := rfl
@[simp] theorem Conn.accept_chCloseReq (sync : BitVec 32) (id : Byte) (items : List Item) (c : Conn) : (c.accept sync id items).chCloseReq = c.chCloseReq := rfl
@[simp] theorem Conn.accept_trace (sync : BitVec 32) (id : Byte) (items : List Item) (c : Conn) : (c.accept sync id items).trace = c.trace ++ [.accepted] := rfl

/-! ### the machine's fields -/

@[simp] theorem State.withConn_cfg (s : State) (c : Conn) : (s.withConn c).cfg = s.cfg := rfl
@[simp] theorem State.withConn_st (s : State) (c : Conn) : (s.withConn c).st = c := rfl
@[simp] theorem State.withConn_slots (s : State) (c : Conn) : (s.withConn c).slots = s.slots := rfl
@[simp] theorem State.withConn_response (s : State) (c : Conn) : (s.withConn c).response = s.response := rfl
@[simp] theorem State.answer_cfg (s : State) (r : Option Response) : (s.answer r).cfg = s.cfg := rfl
@[simp] theorem State.answer_st (s : State) (r : Option Response) : (s.answer r).st = s.st := rfl
@[simp] theorem State.answer_slots (s : State) (r : Option Response) : (s.answer r).slots = s.slots := rfl
@[simp] theorem State.answer_response (s : State) (r : Option Response) : (s.answer r).response = r := rfl

end Sys2Proof.Machine
end

