-- ==== Sys2Proof/Laws/Arq.lean ====
section
/-! SUPPORT. What the operations of the Connection State Machine can do, each said once as the list of its cases
(spec/43_arq_send_receive.md, spec/44_arq_timer_termination.md). -/

namespace Sys2Proof.Machine

/-- A bounded store takes what is within its capacity, an unbounded one everything (R7). -/
theorem capAllows_eq_true (cap : Option Nat) (n : Nat) : capAllows cap n = true ↔ ∀ c, cap = some c → n ≤ c := by
  cases cap <;> simp [capAllows]

/-- Only a bounded store turns something away (R49, R143). -/
theorem capAllows_eq_false (cap : Option Nat) (n : Nat) : capAllows cap n = false ↔ ∃ c, cap = some c ∧ c < n := by
  cases cap <;> simp [capAllows]

/-- `check_done` closes with cause `Normal` or does nothing (R144). -/
theorem Conn.checkDone_cases (c : Conn) :
    (c.endAcked = true ∧ c.peerEndReceived = true ∧ c.connState ≠ .closed ∧ c.checkDone = c.close .normal) ∨
    (¬(c.endAcked = true ∧ c.peerEndReceived = true ∧ c.connState ≠ .closed) ∧ c.checkDone = c) := by
  unfold Conn.checkDone
  split
  · rename_i h
    exact .inl ⟨h.1, h.2.1, h.2.2, rfl⟩
  · rename_i h
    exact .inr ⟨h, rfl⟩

theorem Conn.whenOpen_closed {f : Conn → Conn} {c : Conn} (h : c.connState = .closed) : c.whenOpen f = c := if_pos h

theorem Conn.whenOpen_open {f : Conn → Conn} {c : Conn} (h : c.connState ≠ .closed) : c.whenOpen f = f c := if_neg h

/-- `SEND` answers one of the three refusals and changes nothing, or sends (R131, R132). -/
theorem Conn.send_cases (sync : BitVec 32) (isEnd : Bool) (payload : Bytes) (c : Conn) :
    ((c.connState = .closed ∨ c.endAcked = true) ∧ c.send sync isEnd payload = (.fatal .connectionClosed, c)) ∨
    (c.connState ≠ .closed ∧ c.endAcked = false ∧ maxPayload < payload.length ∧
      c.send sync isEnd payload = (.refused .payloadTooLong, c)) ∨
    (c.connState = .awaitingAck ∧ c.endAcked = false ∧ payload.length ≤ maxPayload ∧
      c.send sync isEnd payload = (.busy, c)) ∨
    (c.connState = .idle ∧ c.endAcked = false ∧ payload.length ≤ maxPayload ∧
      c.send sync isEnd payload = (.accepted, c.transmit (c.sendFrame sync isEnd payload) isEnd)) := by
  unfold Conn.send
  split
  · rename_i h
    exact .inl ⟨h, rfl⟩
  · rename_i h
    simp only [not_or, Bool.not_eq_true] at h
    split
    · exact .inr (.inl ⟨h.1, h.2, by assumption, rfl⟩)
    · split
      · exact .inr (.inr (.inl ⟨by assumption, h.2, by omega, rfl⟩))
      · rename_i h2
        refine .inr (.inr (.inr ⟨?_, h.2, by omega, rfl⟩))
        cases hc : c.connState <;> simp_all

/-- `RECEIVE` takes the pending fatal kind, else the first item, else reports the state (R134). -/
theorem Conn.receive_cases (c : Conn) :
    (∃ k, c.fatalPending = some k ∧ c.receive = (.fatal k.fatalKind, { c with fatalPending := none })) ∨
    (∃ item rest, c.fatalPending = none ∧ c.deliveryQueue = item :: rest ∧
      c.receive = (item.response, { c with deliveryQueue := rest })) ∨
    (c.fatalPending = none ∧ c.deliveryQueue = [] ∧ c.receive.2 = c ∧
      c.receive.1 = (if c.connState = .closed then .fatal .connectionClosed
        else if c.peerEndReceived = true then .endOfStream else .pending)) := by
  unfold Conn.receive
  split
  · rename_i k h
    exact .inl ⟨k, h, rfl⟩
  · rename_i h
    split
    · rename_i item rest hq
      exact .inr (.inl ⟨item, rest, h, hq, rfl⟩)
    · rename_i hq
      refine .inr (.inr ⟨h, hq, ?_, ?_⟩)
      · split <;> [rfl; (split <;> rfl)]
      · split <;> [rfl; (split <;> rfl)]

/-- An ACK retires the outstanding frame or is stale (R137, R138). -/
theorem Conn.onAck_cases (id : Byte) (c : Conn) :
    (∃ f, c.outstandingFrame = some f ∧ id = byteAt f 12 ∧
      c.onAck id = (c.retire (hasFlag (byteAt f 13) flagEnd)).checkDone) ∨
    ((∀ f, c.outstandingFrame = some f → id ≠ byteAt f 12) ∧ c.onAck id = c.record .staleAck) := by
  unfold Conn.onAck
  split
  · rename_i h
    exact .inr ⟨by simp [h], rfl⟩
  · rename_i f h
    split
    · exact .inl ⟨f, h, by assumption, rfl⟩
    · refine .inr ⟨?_, rfl⟩
      intro g hg
      rw [h] at hg
      cases hg
      assumption

/-- A data frame is a duplicate, does not fit, or is accepted (R139, R143). -/
theorem Conn.onData_cases (cfg : Config) (id : Byte) (items : List Item) (c : Conn) (accepted : Conn → Conn) :
    (c.lastAcceptedId = some id ∧ c.onData cfg id items accepted = c.reack cfg.sync id) ∨
    (c.lastAcceptedId ≠ some id ∧ capAllows cfg.deliveryCap (c.deliveryQueue.length + items.length) = false ∧
      c.onData cfg id items accepted = c.record .deliveryOverflow) ∨
    (c.lastAcceptedId ≠ some id ∧ capAllows cfg.deliveryCap (c.deliveryQueue.length + items.length) = true ∧
      c.onData cfg id items accepted = accepted (c.accept cfg.sync id items)) := by
  unfold Conn.onData
  split
  · exact .inl ⟨by assumption, rfl⟩
  · split
    · exact .inr (.inl ⟨by assumption, by assumption, rfl⟩)
    · exact .inr (.inr ⟨by assumption, by simp_all, rfl⟩)

/-- An expiry does nothing, gives up, or retransmits (R161, R162, R163). -/
theorem Conn.timerExpire_cases (cfg : Config) (c : Conn) :
    (c.timerArmed = false ∧ c.timerExpire cfg = c) ∨
    (c.timerArmed = true ∧ cfg.retryCeiling < c.retryCount + 1 ∧
      c.timerExpire cfg = (({ c with retryCount := c.retryCount + 1 }.record .retriesExhausted).emit
        (rstFrame cfg.sync)).close .retriesExhausted) ∨
    (c.timerArmed = true ∧ c.retryCount + 1 ≤ cfg.retryCeiling ∧
      c.timerExpire cfg = { c with retryCount := c.retryCount + 1 }.emit (c.outstandingFrame.getD [])) := by
  unfold Conn.timerExpire
  split
  · exact .inl ⟨by assumption, rfl⟩
  · rename_i h
    split
    · exact .inr (.inl ⟨by simpa using h, by assumption, rfl⟩)
    · rename_i hle
      exact .inr (.inr ⟨by simpa using h, BitVec.not_lt.mp hle, rfl⟩)

/-- An emission appends one whole encoded frame or nothing (R46, R101, R167). -/
theorem Conn.emitEncoded_cases (sync : BitVec 32) (id flags : Byte) (payload : Bytes) (c : Conn) :
    (c.connState ≠ .closed ∧ payload.length ≤ maxPayload ∧
      c.emitEncoded sync id flags payload = c.emit (buildFrame sync id flags payload)) ∨
    ((c.connState = .closed ∨ maxPayload < payload.length) ∧ c.emitEncoded sync id flags payload = c) := by
  unfold Conn.emitEncoded encodeFrame
  by_cases h : payload.length > maxPayload
  · rw [if_pos h]
    exact .inr ⟨.inr h, rfl⟩
  · rw [if_neg h]
    by_cases hc : c.connState = .closed
    · exact .inr ⟨.inl hc, Conn.whenOpen_closed hc⟩
    · exact .inl ⟨hc, by omega, Conn.whenOpen_open hc⟩

end Sys2Proof.Machine
end

