-- ==== Sys2Proof/Laws/Checksum.lean ====
section
/-! SUPPORT. What the parts of the Checksum Engine can do (spec/40_checksum.md R90 to R93): the word sum, the folding and the
complement, each said once. -/

namespace Sys2Proof.Machine

theorem wordSum_append (a b : Bytes) (h : a.length % 2 = 0) : wordSum (a ++ b) = wordSum a + wordSum b := by
  induction a using wordSum.induct with
  | case1 => simp [wordSum]
  | case2 x => simp at h
  | case3 x y rest ih =>
    have : rest.length % 2 = 0 := by simp at h; omega
    simp [wordSum, ih this]
    omega

theorem wordSum_le (b : Bytes) : wordSum b ≤ 65535 * b.length := by
  induction b using wordSum.induct with
  | case1 => simp [wordSum]
  | case2 x =>
    have := x.isLt
    simp [wordSum]
    omega
  | case3 x y rest ih =>
    have := x.isLt
    have := y.isLt
    simp [wordSum]
    omega

/-- One fold keeps the residue modulo `0xFFFF` (R92). -/
theorem fold_mod (s : Nat) : (s % 0x10000 + s / 0x10000) % 65535 = s % 65535 := by omega

/-- Folding keeps the residue modulo `0xFFFF` (R92). -/
theorem foldCarry_mod (k s : Nat) : foldCarry k s % 65535 = s % 65535 := by
  induction k generalizing s with
  | zero => rfl
  | succ k ih =>
    unfold foldCarry
    split
    · rfl
    · rw [ih, fold_mod]

/-- The folded sum is 0 only for the sum 0 (R92). -/
theorem foldCarry_eq_zero (k s : Nat) : foldCarry k s = 0 ↔ s = 0 := by
  induction k generalizing s with
  | zero => rfl
  | succ k ih =>
    unfold foldCarry
    split
    · rfl
    · rw [ih]
      omega

/-- As many folds as there are words are enough (R92: "repeating until no carry remains"). -/
theorem foldCarry_le (k s : Nat) (h : s ≤ 65535 * (k + 1)) : foldCarry k s ≤ 65535 := by
  induction k generalizing s with
  | zero => simpa [foldCarry] using h
  | succ k ih =>
    unfold foldCarry
    split
    · assumption
    · apply ih
      omega

/-- The folded sum of a block fits 16 bits. -/
theorem foldCarry_wordSum_le (b : Bytes) : foldCarry (b.length + 1) (wordSum b) ≤ 65535 := by
  apply foldCarry_le
  have := wordSum_le b
  omega

/-- `CKSUM` is `0xFFFF` less the folded sum (R93). -/
theorem cksum_toNat (b : Bytes) : (cksum b).toNat = 65535 - foldCarry (b.length + 1) (wordSum b) := by
  have := foldCarry_wordSum_le b
  simp [cksum]
  omega

end Sys2Proof.Machine
end

