-- ==== Sys2Proof/Laws/Codec.lean ====
section
/-! SUPPORT. The layout of the frames that `ENCODE` builds, field by field (spec/30_encoding.md R61), and what `DECODE` can
answer (spec/41_frame_codec.md R102). -/

namespace Sys2Proof.Machine

@[simp] theorem byteAt_cons_zero (x : Byte) (b : Bytes) : byteAt (x :: b) 0 = x := rfl
@[simp] theorem byteAt_cons_succ (x : Byte) (b : Bytes) (n : Nat) : byteAt (x :: b) (n + 1) = byteAt b n := rfl
@[simp] theorem be16_length (v : BitVec 16) : (be16 v).length = 2 := rfl
@[simp] theorem be32_length (v : BitVec 32) : (be32 v).length = 4 := rfl
@[simp] theorem mark_length (sync : BitVec 32) : (mark sync).length = 8 := rfl

/-- The high and the low part of a value, put together again. -/
theorem halves_join (n : Nat) (v : BitVec (n + n)) : v.extractLsb' n n ++ v.extractLsb' 0 n = v := by
  apply BitVec.eq_of_getLsbD_eq
  intro i hi
  rw [BitVec.getLsbD_append]
  by_cases h : i < n
  · simp [h]
  · have h1 : i - n < n := by omega
    have h2 : n + (i - n) = i := by omega
    simp [h, h1, h2]

/-- The high part of two values put together. -/
theorem high_of_append (n : Nat) (x y : BitVec n) : (x ++ y).extractLsb' n n = x := by
  apply BitVec.eq_of_getLsbD_eq
  intro i hi
  rw [BitVec.getLsbD_extractLsb', BitVec.getLsbD_append]
  simp [hi]

/-- The low part of two values put together. -/
theorem low_of_append (n : Nat) (x y : BitVec n) : (x ++ y).extractLsb' 0 n = y := by
  apply BitVec.eq_of_getLsbD_eq
  intro i hi
  simp [BitVec.getLsbD_append, hi]

theorem be16_joins (v : BitVec 16) : v.extractLsb' 8 8 ++ v.extractLsb' 0 8 = v := halves_join 8 v

theorem be32_joins (v : BitVec 32) : v.extractLsb' 16 16 ++ v.extractLsb' 0 16 = v := halves_join 16 v

/-- The bytes of a 16-bit value made of two bytes. -/
theorem be16_append (x y : Byte) : be16 (x ++ y) = [x, y] := by
  simp only [be16, high_of_append 8 x y, low_of_append 8 x y]

/-- The bytes of a 32-bit value made of two 16-bit values. -/
theorem be32_append (x y : BitVec 16) : be32 (x ++ y) = be16 x ++ be16 y := by
  simp only [be32, high_of_append 16 x y, low_of_append 16 x y]

/-- A field of two bytes reads as the value written. -/
theorem be16At_be16 (v : BitVec 16) (b : Bytes) : be16At (be16 v ++ b) 0 = v := be16_joins v

/-- A field of four bytes reads as the value written. -/
theorem be32At_be32 (v : BitVec 32) (b : Bytes) : be32At (be32 v ++ b) 0 = v := by
  have h1 : be16At (be32 v ++ b) 0 = v.extractLsb' 16 16 := be16_joins _
  have h2 : be16At (be32 v ++ b) 2 = v.extractLsb' 0 16 := be16_joins _
  rw [be32At, h1, h2, be32_joins]

/-- A frame with the checksum `ck`, as `ENCODE` lays it out (R61). -/
def layout (sync : BitVec 32) (ck len : BitVec 16) (id flags : Byte) (payload : Bytes) : Bytes :=
  mark sync ++ be16 ck ++ be16 len ++ [id, flags] ++ payload

theorem buildFrame_layout (sync : BitVec 32) (id flags : Byte) (payload : Bytes) :
    buildFrame sync id flags payload =
      layout sync (cksum (unsealed sync id flags payload)) (BitVec.ofNat 16 payload.length) id flags payload := by
  rfl

theorem unsealed_layout (sync : BitVec 32) (id flags : Byte) (payload : Bytes) :
    unsealed sync id flags payload = layout sync 0 (BitVec.ofNat 16 payload.length) id flags payload := by
  rfl

section
variable (sync : BitVec 32) (ck len : BitVec 16) (id flags : Byte) (payload : Bytes)

@[simp] theorem layout_length : (layout sync ck len id flags payload).length = headerLen + payload.length := by
  simp [layout, headerLen]
  omega

@[simp] theorem layout_sync1 : be32At (layout sync ck len id flags payload) 0 = sync := by
  simp only [layout, mark, List.append_assoc]
  exact be32At_be32 sync _

@[simp] theorem layout_sync2 : be32At (layout sync ck len id flags payload) 4 = sync :=
  be32At_be32 sync (be16 ck ++ be16 len ++ [id, flags] ++ payload)

@[simp] theorem layout_checksum : be16At (layout sync ck len id flags payload) 8 = ck := be16_joins ck

@[simp] theorem layout_declared : be16At (layout sync ck len id flags payload) 10 = len := be16_joins len

@[simp] theorem layout_id : byteAt (layout sync ck len id flags payload) 12 = id := rfl

@[simp] theorem layout_flags : byteAt (layout sync ck len id flags payload) 13 = flags := rfl

@[simp] theorem layout_payload : (layout sync ck len id flags payload).drop headerLen = payload := rfl

/-- The frame with its checksum field zeroed, as `CKVERIFY` sums it (R95). -/
theorem layout_zeroed :
    (layout sync ck len id flags payload).take 8 ++ [0, 0] ++ (layout sync ck len id flags payload).drop (8 + 2) =
      layout sync 0 len id flags payload := rfl

end

/-- What `DECODE` answers, the first test that applies (R102); one case per result. -/
theorem decodeFrame_cases (sync : BitVec 32) (b : Bytes) :
    (b.length < headerLen ∧ decodeFrame sync b = .incomplete) ∨
    (headerLen ≤ b.length ∧ maxPayload < declaredLength b ∧
      decodeFrame sync b = .framingError .lengthOutOfRange) ∨
    (headerLen ≤ b.length ∧ declaredLength b ≤ maxPayload ∧ b.length < headerLen + declaredLength b ∧
      decodeFrame sync b = .incomplete) ∨
    (declaredLength b ≤ maxPayload ∧ headerLen + declaredLength b ≤ b.length ∧
      (be32At b 0 ≠ sync ∨ be32At b 4 ≠ sync) ∧ decodeFrame sync b = .framingError .invalidSync) ∨
    (declaredLength b ≤ maxPayload ∧ headerLen + declaredLength b ≤ b.length ∧ be32At b 0 = sync ∧ be32At b 4 = sync ∧
      ckverify (b.take (headerLen + declaredLength b)) 8 = false ∧
      decodeFrame sync b = .framingError .checksumMismatch) ∨
    (declaredLength b ≤ maxPayload ∧ headerLen + declaredLength b ≤ b.length ∧ be32At b 0 = sync ∧ be32At b 4 = sync ∧
      ckverify (b.take (headerLen + declaredLength b)) 8 = true ∧
      decodeFrame sync b = .frame (byteAt b 12) (byteAt b 13) ((b.drop headerLen).take (declaredLength b))
        (headerLen + declaredLength b)) := by
  unfold decodeFrame
  split
  · left; exact ⟨by assumption, rfl⟩
  · split
    · right; left; exact ⟨by omega, by omega, rfl⟩
    · split
      · right; right; left; exact ⟨by omega, by omega, by omega, rfl⟩
      · split
        · right; right; right; left; exact ⟨by omega, by omega, by assumption, rfl⟩
        · rename_i h
          simp only [not_or, Decidable.not_not] at h
          split
          · right; right; right; right; left; exact ⟨by omega, by omega, h.1, h.2, by assumption, rfl⟩
          · right; right; right; right; right
            exact ⟨by omega, by omega, h.1, h.2, by simp_all, rfl⟩

/-- `DECODE` answers a frame only for at least a header's bytes, and takes no more bytes than there are (R107). -/
theorem decodeFrame_consumed {sync : BitVec 32} {b : Bytes} {id flags : Byte} {payload : Bytes} {n : Nat}
    (h : decodeFrame sync b = .frame id flags payload n) :
    headerLen ≤ n ∧ n ≤ b.length ∧ payload.length + headerLen = n ∧ payload.length ≤ maxPayload := by
  rcases decodeFrame_cases sync b with ⟨_, e⟩ | ⟨_, _, e⟩ | ⟨_, _, _, e⟩ | ⟨_, _, _, e⟩ | ⟨_, _, _, _, _, e⟩ |
    ⟨h1, h2, _, _, _, e⟩
  all_goals rw [e] at h
  all_goals first | (cases h; done) | skip
  simp only [DecodeResult.frame.injEq] at h
  obtain ⟨-, -, rfl, rfl⟩ := h
  simp
  omega

end Sys2Proof.Machine
end

