-- ==== Sys2Proof/Laws/Interface.lean ====
section
/-! SUPPORT. The event interface and the step: which event a schedule gives, that a step is the meaning of that event, and
operations run one after another. -/

namespace Sys2Proof.Machine

/-- The arbiter gives an event exactly when one is presented (R192). -/
theorem takeFirst_eq_none (slot : List EventWord) : takeFirst slot = none ↔ slot = [] := by
  cases slot with
  | nil => simp [takeFirst]
  | cons e es =>
    simp only [takeFirst]
    split <;> [simp; (split <;> simp)]

/-- An event presented alone is the next one. -/
theorem nextEvent_single (e : EventWord) (slots : List (List EventWord)) :
    nextEvent ([e] :: slots) = some (e, slots) := rfl

/-- With an event to take, a step is that event's meaning on the state without it (R50). -/
theorem step_of_nextEvent {s : State} {e : EventWord} {rest : List (List EventWord)}
    (h : nextEvent s.slots = some (e, rest)) : step s = exec (decodeEvent e) { s with slots := rest } := by
  simp [step, h]

/-- With no event presented a step changes nothing (R210). -/
theorem step_of_no_event {s : State} (h : nextEvent s.slots = none) : step s = .next s := by
  simp [step, h]

@[simp] theorem execAll_nil (s : State) : execAll [] s = .next s := rfl

/-- Operations run one after another: the first, then the others on the state it leaves (R121). -/
theorem execAll_cons {i : Instr} {s t : State} (rest : List Instr) (h : exec i s = .next t) :
    execAll (i :: rest) s = execAll rest t := by
  simp [execAll, h]

end Sys2Proof.Machine
end

