-- ==== Sys2Proof/Laws/PerInstr.lean ====
section
/-! SUPPORT. A family of statements about every operation as syntax: the word the encoder gives a well-formed operation matches
the operation's row of spec/opcode_table.json (its format, `match` and `mask`). The rows are transcribed here from the table,
not from the encoder. -/

namespace Sys2Proof.Laws.TableRow

open Sys2Proof.Machine

/-- The `format` column of the table. -/
inductive Format where
  | cmd
  | frameRx
  | frameTx
deriving DecidableEq, Repr

/-- The row of an operation: format, `match`, `mask`. -/
def row : Instr → Format × Nat × Nat
  | .cksum _ => (.cmd, 0x1, 0xF)
  | .encodeFrame _ _ _ => (.cmd, 0x2, 0xF)
  | .decodeFrame _ => (.cmd, 0x3, 0xF)
  | .send _ => (.cmd, 0x4, 0xF)
  | .sendEnd _ => (.cmd, 0x5, 0xF)
  | .receive => (.cmd, 0x6, 0xF)
  | .rdstat _ => (.cmd, 0x7, 0xF)
  | .rxBytes _ => (.cmd, 0x8, 0xF)
  | .chClose => (.cmd, 0x9, 0xF)
  | .timerExpire => (.cmd, 0xA, 0xF)
  | .reset => (.cmd, 0xF, 0xF)
  | .reserved0 => (.cmd, 0x0, 0xF)
  | .reservedB => (.cmd, 0xB, 0xF)
  | .reservedC => (.cmd, 0xC, 0xF)
  | .reservedD => (.cmd, 0xD, 0xF)
  | .reservedE => (.cmd, 0xE, 0xF)
  | .fRst _ _ _ => (.frameRx, 0xDCC023C2DCC023C2000000000020, 0xFFFFFFFFFFFFFFFF000000000020)
  | .fAck _ _ _ => (.frameRx, 0xDCC023C2DCC023C2000000000080, 0xFFFFFFFFFFFFFFFF0000000000A0)
  | .fDataEnd _ _ _ => (.frameRx, 0xDCC023C2DCC023C2000000000040, 0xFFFFFFFFFFFFFFFF0000000000E0)
  | .fData _ _ _ => (.frameRx, 0xDCC023C2DCC023C2000000000000, 0xFFFFFFFFFFFFFFFF0000000000E0)
  | .txData _ _ => (.frameTx, 0xDCC023C2DCC023C2000000000000, 0xFFFFFFFFFFFFFFFF0000000000FF)
  | .txDataEnd _ _ => (.frameTx, 0xDCC023C2DCC023C2000000000040, 0xFFFFFFFFFFFFFFFF0000000000FF)
  | .txAck _ => (.frameTx, 0xDCC023C2DCC023C2000000000080, 0xFFFFFFFFFFFFFFFF0000FFFF00FF)
  | .txRst => (.frameTx, 0xDCC023C2DCC023C2FED900000020, 0xFFFFFFFFFFFFFFFFFFFFFFFFFFFF)

/-- The header of a frame as one big-endian number (R61). -/
def headerBits (b : Bytes) : BitVec 112 :=
  be32At b 0 ++ be32At b 4 ++ be16At b 8 ++ be16At b 10 ++ byteAt b 12 ++ byteAt b 13

/-- Whether a word has the format of a row and its bits under `mask` are `match`. -/
def Matches : InstrWord → Format × Nat × Nat → Prop
  | .cmd e, (f, v, m) => f = .cmd ∧ e.op &&& BitVec.ofNat 4 m = BitVec.ofNat 4 v
  | .frameRx b, (f, v, m) => f = .frameRx ∧ headerBits b &&& BitVec.ofNat 112 m = BitVec.ofNat 112 v
  | .frameTx b, (f, v, m) => f = .frameTx ∧ headerBits b &&& BitVec.ofNat 112 m = BitVec.ofNat 112 v

/-- The word of a well-formed operation matches its row of the table (the default `SYNC`, which the table's rows hold). -/
def Statement (i : Instr) : Prop :=
  i.wf = true → Matches (encode Config.default.sync i) (row i)

/-- A mask over the six fields of a header acts on each field. -/
theorem header_mask (sync ms vs : BitVec 32) (ck mc vc len ml vl : BitVec 16) (id mi vi flags mf vf : Byte)
    (payload : Bytes) (h1 : sync &&& ms = vs) (h2 : ck &&& mc = vc) (h3 : len &&& ml = vl) (h4 : id &&& mi = vi)
    (h5 : flags &&& mf = vf) :
    headerBits (layout sync ck len id flags payload) &&& (ms ++ ms ++ mc ++ ml ++ mi ++ mf) =
      vs ++ vs ++ vc ++ vl ++ vi ++ vf := by
  have e : headerBits (layout sync ck len id flags payload) = sync ++ sync ++ ck ++ len ++ id ++ flags := by
    simp [headerBits]
  rw [e, BitVec.and_append, BitVec.and_append, BitVec.and_append, BitVec.and_append, BitVec.and_append, h1, h2, h3, h4, h5]

/-- The header of a frame under a mask that covers the sync fields and part of the flags. -/
theorem frame_matches (id flags mf vf : Byte) (payload : Bytes) (h : flags &&& mf = vf) :
    headerBits (buildFrame Config.default.sync id flags payload) &&&
        ((0xFFFFFFFF#32 ++ 0xFFFFFFFF#32 ++ 0#16 ++ 0#16 ++ 0#8 ++ mf : BitVec 112)) =
      (0xDCC023C2#32 ++ 0xDCC023C2#32 ++ 0#16 ++ 0#16 ++ 0#8 ++ vf : BitVec 112) :=
  header_mask _ _ _ _ _ _ _ _ _ _ _ _ _ _ _ _ (by decide) (by simp) (by simp) (by simp) h

/-- The classes of R68 as the table's masks over the flags byte. -/
theorem class_masks : ∀ flags : Byte,
    (frameClass flags = .rst → flags &&& 0x20 = 0x20) ∧ (frameClass flags = .ack → flags &&& 0xA0 = 0x80) ∧
      (frameClass flags = .dataEnd → flags &&& 0xE0 = 0x40) ∧ (frameClass flags = .data → flags &&& 0xE0 = 0x00) := by
  decide

/-- An event word matches its row when its code does. -/
theorem cmd_matches (op : BitVec 4) (args : Operands) (v : Nat) (h : op &&& 0xF = BitVec.ofNat 4 v) :
    Matches (.cmd { op := op, args := args }) (.cmd, v, 0xF) := ⟨rfl, h⟩

theorem cksum (b : Bytes) : Statement (.cksum b) := fun _ => cmd_matches _ _ _ (by decide)
theorem encodeFrame (id flags : Byte) (payload : Bytes) : Statement (.encodeFrame id flags payload) := fun _ => cmd_matches _ _ _ (by decide)
theorem decodeFrame (b : Bytes) : Statement (.decodeFrame b) := fun _ => cmd_matches _ _ _ (by decide)
theorem send (payload : Bytes) : Statement (.send payload) := fun _ => cmd_matches _ _ _ (by decide)
theorem sendEnd (payload : Bytes) : Statement (.sendEnd payload) := fun _ => cmd_matches _ _ _ (by decide)
theorem receive : Statement .receive := fun _ => cmd_matches _ _ _ (by decide)
theorem rdstat (n : Byte) : Statement (.rdstat n) := fun _ => cmd_matches _ _ _ (by decide)
theorem rxBytes (chunk : Bytes) : Statement (.rxBytes chunk) := fun _ => cmd_matches _ _ _ (by decide)
theorem chClose : Statement .chClose := fun _ => cmd_matches _ _ _ (by decide)
theorem timerExpire : Statement .timerExpire := fun _ => cmd_matches _ _ _ (by decide)
theorem reset : Statement .reset := fun _ => cmd_matches _ _ _ (by decide)
theorem reserved0 : Statement .reserved0 := fun _ => cmd_matches _ _ _ (by decide)
theorem reservedB : Statement .reservedB := fun _ => cmd_matches _ _ _ (by decide)
theorem reservedC : Statement .reservedC := fun _ => cmd_matches _ _ _ (by decide)
theorem reservedD : Statement .reservedD := fun _ => cmd_matches _ _ _ (by decide)
theorem reservedE : Statement .reservedE := fun _ => cmd_matches _ _ _ (by decide)

theorem fRst (id flags : Byte) (payload : Bytes) : Statement (.fRst id flags payload) := fun h => by
  simp only [Instr.wf, Bool.and_eq_true, decide_eq_true_eq] at h
  exact ⟨rfl, frame_matches id flags 0x20 0x20 payload ((class_masks flags).1 h.2)⟩

theorem fAck (id flags : Byte) (payload : Bytes) : Statement (.fAck id flags payload) := fun h => by
  simp only [Instr.wf, Bool.and_eq_true, decide_eq_true_eq] at h
  exact ⟨rfl, frame_matches id flags 0xA0 0x80 payload ((class_masks flags).2.1 h.2)⟩

theorem fDataEnd (id flags : Byte) (payload : Bytes) : Statement (.fDataEnd id flags payload) := fun h => by
  simp only [Instr.wf, Bool.and_eq_true, decide_eq_true_eq] at h
  exact ⟨rfl, frame_matches id flags 0xE0 0x40 payload ((class_masks flags).2.2.1 h.2)⟩

theorem fData (id flags : Byte) (payload : Bytes) : Statement (.fData id flags payload) := fun h => by
  simp only [Instr.wf, Bool.and_eq_true, decide_eq_true_eq] at h
  exact ⟨rfl, frame_matches id flags 0xE0 0x00 payload ((class_masks flags).2.2.2 h.2)⟩

theorem txData (id : Byte) (payload : Bytes) : Statement (.txData id payload) := fun _ =>
  ⟨rfl, frame_matches id 0x00 0xFF 0x00 payload rfl⟩

theorem txDataEnd (id : Byte) (payload : Bytes) : Statement (.txDataEnd id payload) := fun _ =>
  ⟨rfl, frame_matches id 0x40 0xFF 0x40 payload rfl⟩

theorem txAck (id : Byte) : Statement (.txAck id) := fun _ =>
  ⟨rfl, header_mask Config.default.sync 0xFFFFFFFF#32 0xDCC023C2#32 _ 0#16 0#16 0#16 0xFFFF#16 0#16 id 0#8 0#8 flagAck 0xFF#8 0x80#8
    [] (by decide) (by simp) (by decide) (by simp) (by decide)⟩

theorem txRst : Statement .txRst := fun _ => ⟨rfl, by decide⟩

end Sys2Proof.Laws.TableRow
end

