-- ==== Sys2Proof/Laws/Reassembler.lean ====
section
/-! SUPPORT. What the reassembler's operations can do (spec/42_reassembler.md): the scan, one iteration of the extraction loop,
and how the handling of a frame stands to the bytes still buffered. -/

namespace Sys2Proof.Machine

/-- The scan drops bytes from the front only. -/
theorem scanToMarker_suffix (sync : BitVec 32) (b : Bytes) : scanToMarker sync b <:+ b := by
  induction b with
  | nil => exact List.suffix_refl _
  | cons x rest ih =>
    unfold scanToMarker
    split
    · exact List.suffix_refl _
    · exact ih.trans (List.suffix_cons x rest)

/-- `resync` drops at least the first byte (R122). -/
theorem resync_length (sync : BitVec 32) (b : Bytes) : (resync sync b).length ≤ b.length - 1 := by
  have := (scanToMarker_suffix sync (b.drop 1)).length_le
  simpa [resync] using this

theorem Conn.extract_incomplete {cfg : Config} {c : Conn} (k : Nat)
    (h : decodeFrame cfg.sync c.receiveBuffer = .incomplete) : c.extract cfg (k + 1) = c := by
  simp [Conn.extract, h]

theorem Conn.extract_error {cfg : Config} {c : Conn} {kind : FramingKind} (k : Nat)
    (h : decodeFrame cfg.sync c.receiveBuffer = .framingError kind) :
    c.extract cfg (k + 1) =
      { c.record kind.tag with receiveBuffer := resync cfg.sync c.receiveBuffer }.extract cfg k := by
  simp [Conn.extract, h]

theorem Conn.extract_frame {cfg : Config} {c : Conn} {id flags : Byte} {payload : Bytes} {n : Nat} (k : Nat)
    (h : decodeFrame cfg.sync c.receiveBuffer = .frame id flags payload n) :
    c.extract cfg (k + 1) =
      let c' := { c with receiveBuffer := c.receiveBuffer.drop n }.dispatch cfg id flags payload
      if c'.connState = .closed then c' else c'.extract cfg k := by
  simp [Conn.extract, h]

/-- A property that every iteration of the loop keeps holds at its end (R120, R121). -/
theorem Conn.extract_induction {cfg : Config} {P : Conn → Prop}
    (frame : ∀ c id flags payload n, P c → decodeFrame cfg.sync c.receiveBuffer = .frame id flags payload n →
      P ({ c with receiveBuffer := c.receiveBuffer.drop n }.dispatch cfg id flags payload))
    (error : ∀ c kind, P c → decodeFrame cfg.sync c.receiveBuffer = .framingError kind →
      P { c.record kind.tag with receiveBuffer := resync cfg.sync c.receiveBuffer })
    (k : Nat) (c : Conn) (h : P c) : P (c.extract cfg k) := by
  induction k generalizing c with
  | zero => exact h
  | succ k ih =>
    cases hd : decodeFrame cfg.sync c.receiveBuffer with
    | incomplete => rwa [Conn.extract_incomplete k hd]
    | framingError kind =>
      rw [Conn.extract_error k hd]
      exact ih _ (error c kind h hd)
    | frame id flags payload n =>
      rw [Conn.extract_frame k hd]
      have := frame c id flags payload n h hd
      dsimp only
      split
      · exact this
      · exact ih _ this

/-- `RX_BYTES` is ignored in `Closed`, turned away when it does not fit, or absorbed (R120, R126, R127). -/
theorem Conn.rx_cases (cfg : Config) (chunk : Bytes) (c : Conn) :
    (c.connState = .closed ∧ c.rx cfg chunk = (.rxAccepted, c)) ∨
    (c.connState ≠ .closed ∧ capAllows cfg.rxbufCap (c.receiveBuffer.length + chunk.length) = false ∧
      c.rx cfg chunk = (.rxNotAccepted, c)) ∨
    (c.connState ≠ .closed ∧ capAllows cfg.rxbufCap (c.receiveBuffer.length + chunk.length) = true ∧
      c.rx cfg chunk = (.rxAccepted, c.absorb cfg chunk)) := by
  unfold Conn.rx
  split
  · exact .inl ⟨by assumption, rfl⟩
  · split
    · exact .inr (.inl ⟨by assumption, by assumption, rfl⟩)
    · exact .inr (.inr ⟨by assumption, by simp_all, rfl⟩)

end Sys2Proof.Machine
end

