-- ==== Sys2Proof/Tests/Slice0.lean ====
section
/-! SUPPORT. The model's own tests. The expected values are the spec's: the worked vectors of spec/95_test_vectors.md, named by
their ids, and the constants of spec/30_encoding.md R69. After the tests, one witness for the hypotheses of each statement of
Sys2Proof/Certificates/Slice0/Obligations.lean that has any. -/

namespace Sys2Proof.Tests

open Sys2Proof Sys2Proof.Machine

/-! ### The words and states the tests share -/

/-- The default marker. -/
def sync : BitVec 32 := 0xDCC023C2

/-- `MARK` (R63). -/
def m : Bytes := [0xDC, 0xC0, 0x23, 0xC2, 0xDC, 0xC0, 0x23, 0xC2]

/-- ASCII "hello". -/
def hello : Bytes := [0x68, 0x65, 0x6C, 0x6C, 0x6F]

/-- Vector E2: the data frame with id 0 and payload "hello". -/
def e2 : Bytes := m ++ [0xBB, 0x22, 0x00, 0x05, 0x00, 0x00, 0x68, 0x65, 0x6C, 0x6C, 0x6F]

/-- Vector E5: `ACK(0)`. -/
def e5 : Bytes := m ++ [0xFE, 0x79, 0x00, 0x00, 0x00, 0x80]

/-- Vector E6: `ACK(1)`. -/
def e6 : Bytes := m ++ [0xFD, 0x79, 0x00, 0x00, 0x01, 0x80]

/-- Vector E8: the RST frame. -/
def e8 : Bytes := m ++ [0xFE, 0xD9, 0x00, 0x00, 0x00, 0x20]

/-- Vector E9: an empty END frame with id 0. -/
def e9 : Bytes := m ++ [0xFE, 0xB9, 0x00, 0x00, 0x00, 0x40]

/-- Vector E11: an END frame with id 1 and payload "bye". -/
def e11 : Bytes := m ++ [0x36, 0x3D, 0x00, 0x03, 0x01, 0x40, 0x62, 0x79, 0x65]

/-- Vector E14: the data frame with id 0 and payload "a". -/
def e14 : Bytes := m ++ [0x9D, 0xF8, 0x00, 0x01, 0x00, 0x00, 0x61]

/-- Vector E15: the data frame with id 1 and payload "ab". -/
def e15 : Bytes := m ++ [0x9C, 0x95, 0x00, 0x02, 0x01, 0x00, 0x61, 0x62]

/-- Vector E21: the data frame with id 1 and payload "zz". -/
def e21 : Bytes := m ++ [0x83, 0x7D, 0x00, 0x02, 0x01, 0x00, 0x7A, 0x7A]

/-- The state after one operation, for operations that answer a next state. -/
def after (i : Instr) (s : State) : State :=
  match exec i s with
  | .next t => t
  | .fault _ => s
  | .refused _ => s

/-- Status registers 0 to 9 (the `regs` of spec/95_test_vectors.md). -/
def regs (s : State) : List Nat := (List.range 10).map fun n => statusContent s.cfg s.st (BitVec.ofNat 8 n)

/-- After `SEND "hello"`. -/
def sent : State := after (.send hello) State.reset

/-- After `RX E14`: one payload queued. -/
def holding : State := after (.rxBytes e14) State.reset

/-- After an RST from the peer. -/
def aborted : State := after (.rxBytes e8) State.reset

/-- After `SEND.END ""` and its ACK: the send half is closed. -/
def ended : State := after (.rxBytes e5) (after (.sendEnd []) State.reset)

/-- After the peer's END, and then `SEND.END "hello"` outstanding. -/
def closing : State := after (.sendEnd hello) (after (.rxBytes e9) State.reset)

/-- Reset with a bounded delivery queue. -/
def capped (n : Nat) : State := { State.reset with cfg := { deliveryCap := some n } }

/-- A payload of exactly `MAX_PAYLOAD` bytes. -/
def full : Bytes := List.replicate 4096 0

/-- A payload one byte longer. -/
def tooLong : Bytes := List.replicate 4097 0

theorem full_length : full.length = 4096 := List.length_replicate

theorem tooLong_length : tooLong.length = 4097 := List.length_replicate

/-! ### Ill-formed terms are refused (R65, R68, R69) -/

theorem test_wf_refuses_wrong_class :
    (Instr.fRst 0 0x00 []).wf = false ∧ (Instr.fAck 0 0xA0 []).wf = false ∧ (Instr.fDataEnd 0 0x80 []).wf = false ∧
      (Instr.fData 0 0x40 []).wf = false := by decide

theorem test_wf_refuses_long_payload :
    (Instr.fRst 0 0x20 tooLong).wf = false ∧ (Instr.fAck 0 0x80 tooLong).wf = false ∧ (Instr.fDataEnd 0 0x40 tooLong).wf = false ∧
      (Instr.fData 0 0 tooLong).wf = false ∧ (Instr.txData 0 tooLong).wf = false ∧ (Instr.txDataEnd 0 tooLong).wf = false := by
  simp [Instr.wf, maxPayload, tooLong_length]

theorem test_wf_refuses_ids_the_core_does_not_emit :
    (Instr.txData 2 hello).wf = false ∧ (Instr.txDataEnd 0xFF hello).wf = false := by decide

/-! ### Every constructor decodes from a word written out from R61, R74 and R75 -/

theorem test_decode_cksum : decode sync (.cmd { op := 0b0001, args := { bytes := [0x12, 0x34] } }) = .ok (.cksum [0x12, 0x34]) := by
  decide
theorem test_decode_encode :
    decode sync (.cmd { op := 0b0010, args := { id := 7, flags := 0x80, bytes := [1] } }) = .ok (.encodeFrame 7 0x80 [1]) := by
  decide
theorem test_decode_decode : decode sync (.cmd { op := 0b0011, args := { bytes := [9] } }) = .ok (.decodeFrame [9]) := by decide
theorem test_decode_send : decode sync (.cmd { op := 0b0100, args := { bytes := [9] } }) = .ok (.send [9]) := by decide
theorem test_decode_sendEnd : decode sync (.cmd { op := 0b0101, args := { bytes := [9] } }) = .ok (.sendEnd [9]) := by decide
theorem test_decode_receive : decode sync (.cmd { op := 0b0110 }) = .ok .receive := by decide
theorem test_decode_rdstat : decode sync (.cmd { op := 0b0111, args := { n := 17 } }) = .ok (.rdstat 17) := by decide
theorem test_decode_rxBytes : decode sync (.cmd { op := 0b1000, args := { bytes := [9] } }) = .ok (.rxBytes [9]) := by decide
theorem test_decode_chClose : decode sync (.cmd { op := 0b1001 }) = .ok .chClose := by decide
theorem test_decode_timerExpire : decode sync (.cmd { op := 0b1010 }) = .ok .timerExpire := by decide
theorem test_decode_reset : decode sync (.cmd { op := 0b1111 }) = .ok .reset := by decide
theorem test_decode_reserved0 : decode sync (.cmd { op := 0b0000 }) = .ok .reserved0 := by decide
theorem test_decode_reservedB : decode sync (.cmd { op := 0b1011 }) = .ok .reservedB := by decide
theorem test_decode_reservedC : decode sync (.cmd { op := 0b1100 }) = .ok .reservedC := by decide
theorem test_decode_reservedD : decode sync (.cmd { op := 0b1101 }) = .ok .reservedD := by decide
theorem test_decode_reservedE : decode sync (.cmd { op := 0b1110 }) = .ok .reservedE := by decide
/-- E8, and E23: id 9, all flags, payload "junk". -/
theorem test_decode_fRst : decode sync (.frameRx e8) = .ok (.fRst 0 0x20 []) ∧
    decode sync (.frameRx (m ++ [0x1C, 0x16, 0x00, 0x04, 0x09, 0xFF, 0x6A, 0x75, 0x6E, 0x6B])) =
      .ok (.fRst 9 0xFF [0x6A, 0x75, 0x6E, 0x6B]) := by decide
/-- E6, and E19: reserved bits set and a payload. -/
theorem test_decode_fAck : decode sync (.frameRx e6) = .ok (.fAck 1 0x80 []) ∧
    decode sync (.frameRx (m ++ [0x85, 0xDF, 0x00, 0x02, 0x00, 0x9F, 0x78, 0x79])) = .ok (.fAck 0 0x9F [0x78, 0x79]) := by decide
theorem test_decode_fDataEnd : decode sync (.frameRx e11) = .ok (.fDataEnd 1 0x40 [0x62, 0x79, 0x65]) := by decide
/-- E14, and E20: id 7, a reserved bit set. -/
theorem test_decode_fData : decode sync (.frameRx e14) = .ok (.fData 0 0x00 [0x61]) ∧
    decode sync (.frameRx (m ++ [0x86, 0xF7, 0x00, 0x01, 0x07, 0x01, 0x71])) = .ok (.fData 7 0x01 [0x71]) := by decide
theorem test_decode_txData : decode sync (.frameTx e15) = .ok (.txData 1 [0x61, 0x62]) := by decide
theorem test_decode_txDataEnd : decode sync (.frameTx e11) = .ok (.txDataEnd 1 [0x62, 0x79, 0x65]) := by decide
theorem test_decode_txAck : decode sync (.frameTx e6) = .ok (.txAck 1) := by decide
theorem test_decode_txRst : decode sync (.frameTx e8) = .ok .txRst := by decide

/-- A frame the CORE never emits is no emitted frame: id 7 (E20) on the TX stream. -/
theorem test_decode_refuses_foreign_tx :
    decode sync (.frameTx (m ++ [0x86, 0xF7, 0x00, 0x01, 0x07, 0x01, 0x71])) = .error .notEmitted := by decide

/-- D3, D7, D9, D14 on the RX stream. -/
theorem test_decode_refuses_by_name :
    decode sync (.frameRx (e2.take 14)) = .error .incomplete ∧
    decode sync (.frameRx (e2.set 0 0xDD)) = .error (.framing .invalidSync) ∧
    decode sync (.frameRx (e2.set 9 0x23)) = .error (.framing .checksumMismatch) ∧
    decode sync (.frameRx (m ++ [0x00, 0x00, 0x10, 0x01, 0x00, 0x00])) = .error (.framing .lengthOutOfRange) := by decide

/-- The table's numbers: an event word is a number below 16; a frame header is one 112-bit number (R61). -/
theorem test_table_words :
    decodeTableWord 8 0x6 = some .receive ∧ decodeTableWord 8 0x16 = none ∧
    decodeTableWord 112 0xDCC023C2DCC023C2FE7900000080 = some (.fAck 0 0x80 []) ∧
    decodeTableWord 112 0xDCC023C2DCC023C2000000000040 = some (.fDataEnd 0 0x40 []) ∧
    decodeTableWord 112 0xDCC023C2DCC023C2FE7800000080 = none := by decide

/-- A table word placed for the next step runs there: a `SEND` of no bytes, and an RST frame. -/
theorem test_fetch_word :
    (match step (State.reset.withFetchWord 8 0x4) with | .next t => regs t | _ => []) = [1, 0, 0, 0, 33, 0, 0, 0, 0, 14] ∧
    (match step (State.reset.withFetchWord 112 0xDCC023C2DCC023C2000000000020) with | .next t => regs t | _ => []) =
      [2, 0, 0, 0, 16, 2, 1, 0, 0, 0] := by decide

/-! ### One step of each operation -/

/-- K8: the pad of an odd block. -/
theorem test_cksum_pad : (after (.cksum [0x12, 0x34, 0x56]) sent).response = some (.checksum 0x97CB) := by decide
/-- K17: a fold that itself carries. -/
theorem test_cksum_double_fold :
    (after (.cksum [0xFF, 0xFF, 0xFF, 0xFF, 0x00, 0x01]) State.reset).response = some (.checksum 0xFFFE) := by decide
/-- E2. -/
theorem test_encode : (after (.encodeFrame 0 0x00 hello) aborted).response = some (.encoded e2) := by decide
/-- E16: every flag bit is carried. -/
theorem test_encode_all_flags : (after (.encodeFrame 0xFF 0xFF [0xFF]) State.reset).response =
    some (.encoded (m ++ [0xFF, 0xF7, 0x00, 0x01, 0xFF, 0xFF, 0xFF])) := by decide
/-- D15: the length is tested before the markers. -/
theorem test_decode_length_first : (after (.decodeFrame (List.replicate 10 0 ++ [0xFF, 0xFF, 0x00, 0x00])) sent).response =
    some (.decoded (.framingError .lengthOutOfRange)) := by decide
/-- D28: one inverted length bit that the checksum does not see. -/
theorem test_decode_truncated :
    (after (.decodeFrame (m ++ [0xFE, 0xF9, 0x00, 0x00, 0x00, 0x00, 0xFF, 0xFB, 0x00, 0x00])) State.reset).response =
      some (.decoded (.frame 0 0 [] 14)) := by decide
/-- H1. -/
theorem test_send : regs sent = [1, 0, 0, 0, 33, 0, 0, 0, 0, 19] ∧ sent.st.txStream = e2 ∧ sent.response = some .accepted := by
  decide
/-- H2. -/
theorem test_send_busy : (after (.send [0x78]) sent).response = some .busy ∧ (after (.send [0x78]) sent).st = sent.st := by decide
/-- H7. -/
theorem test_sendEnd : regs (after (.sendEnd []) State.reset) = [1, 0, 0, 0, 35, 0, 0, 0, 0, 14] ∧
    (after (.sendEnd []) State.reset).st.txStream = e9 := by decide
/-- H10: the send half is closed. -/
theorem test_sendEnd_after_end : (after (.sendEnd [0x78]) ended).response = some (.fatal .connectionClosed) := by decide
/-- P7, step 10. -/
theorem test_receive : (after .receive holding).response = some (.payload [0x61]) ∧
    (after .receive holding).st.deliveryQueue = [] := by decide
/-- R134 (a): the fatal kind is given once. -/
theorem test_receive_fatal : (after .receive aborted).response = some (.fatal .peerReset) ∧
    (after .receive (after .receive aborted)).response = some (.fatal .connectionClosed) := by decide
/-- M8. -/
theorem test_rdstat : (after (.rdstat 16) State.reset).response = some (.register 0xDCC023C2) ∧
    (after (.rdstat 17) State.reset).response = some (.register 16) ∧
    (after (.rdstat 18) State.reset).response = some (.register 4096) := by decide
/-- M9. -/
theorem test_rdstat_unmapped : (after (.rdstat 10) sent).response = some (.register 0) ∧
    (after (.rdstat 255) sent).response = some (.register 0) := by decide
/-- X10: a damaged frame, and the whole frame in its payload. -/
theorem test_rxBytes_resync :
    let s := after (.rxBytes (m ++ [0xBD, 0xA5, 0x00, 0x12, 0x00, 0x00, 0x40, 0x42] ++ e21)) State.reset
    regs s = [0, 0, 257, 0, 0, 0, 0, 0, 1, 0] ∧ s.st.deliveryQueue = [.payload [0x7A, 0x7A]] ∧
      s.st.trace = [.checksumMismatch, .accepted] ∧ s.st.txStream = e6 := by decide
/-- X12: the loop ends at the RST. -/
theorem test_rxBytes_stops_at_rst :
    let s := after (.rxBytes (e14 ++ e8 ++ e15)) State.reset
    regs s = [2, 0, 256, 0, 16, 2, 1, 0, 0, 0] ∧ s.st.trace = [.accepted, .peerReset] ∧ s.st.txStream = e5 := by decide
/-- M5. -/
theorem test_chClose : regs (after .chClose (after (.send hello) holding)) = [2, 0, 256, 0, 16, 4, 0, 0, 1, 0] := by decide
/-- M6. -/
theorem test_chClose_again : (after .chClose aborted).st = aborted.st := by decide
/-- M2: the retransmission. -/
theorem test_timerExpire : regs (after .timerExpire sent) = [1, 0, 0, 1, 33, 0, 0, 0, 0, 19] ∧
    (after .timerExpire sent).st.txStream = e2 ++ e2 := by decide
/-- P1, step 19: the expiry beyond the ceiling. -/
theorem test_timerExpire_gives_up :
    let s := after .timerExpire { sent with st := { sent.st with retryCount := 16 } }
    regs s = [2, 0, 0, 0, 16, 3, 2, 0, 0, 0] ∧ s.st.txStream = e2 ++ e8 ∧ s.st.trace = [.retriesExhausted] := by decide
/-- M7. -/
theorem test_reset : regs (after .reset aborted) = [0, 0, 0, 0, 0, 0, 0, 0, 0, 0] ∧
    (after .receive (after .reset aborted)).response = some .pending := by decide
/-- M10, and its status code 13. -/
theorem test_reserved0 : ((after .reserved0 sent).response.map Response.status) = some 13 ∧ (after .reserved0 sent).st = sent.st := by
  decide
theorem test_reservedB : (after .reservedB sent).response = some (.refused .illegalCommand) := by decide
theorem test_reservedC : (after .reservedC sent).response = some (.refused .illegalCommand) := by decide
theorem test_reservedD : (after .reservedD sent).response = some (.refused .illegalCommand) := by decide
theorem test_reservedE : (after .reservedE sent).response = some (.refused .illegalCommand) := by decide
/-- F8: queued data is lost. -/
theorem test_fRst : regs (after (.fRst 0 0x20 []) holding) = [2, 0, 256, 0, 16, 2, 1, 0, 0, 0] := by decide
/-- F1. -/
theorem test_fAck : regs (after (.fAck 0 0x80 []) sent) = [0, 1, 0, 0, 0, 0, 0, 0, 0, 0] := by decide
/-- F2. -/
theorem test_fAck_stale : regs (after (.fAck 1 0x80 []) sent) = [1, 0, 0, 0, 33, 0, 0, 0, 0, 19] ∧
    (after (.fAck 1 0x80 []) sent).st.trace = [.staleAck] := by decide
/-- F13: an empty END queues the end only. -/
theorem test_fDataEnd : regs (after (.fDataEnd 0 0x40 []) State.reset) = [0, 0, 256, 0, 8, 0, 0, 0, 1, 0] ∧
    (after (.fDataEnd 0 0x40 []) State.reset).st.txStream = e5 := by decide
/-- F18: an END with a payload needs two places. -/
theorem test_fDataEnd_overflow :
    let s := after (.fDataEnd 1 0x40 [0x62, 0x79, 0x65]) (after (.fData 0 0 [0x61]) (capped 2))
    regs s = [0, 0, 256, 0, 0, 0, 0, 0, 1, 0] ∧ s.st.trace = [.accepted, .deliveryOverflow] ∧ s.st.txStream = e5 := by decide
/-- F9: an id above 1, a reserved bit. -/
theorem test_fData : regs (after (.fData 7 0x01 [0x71]) State.reset) = [0, 0, 263, 0, 0, 0, 0, 0, 1, 0] ∧
    (after (.fData 7 0x01 [0x71]) State.reset).st.txStream = m ++ [0xF7, 0x79, 0x00, 0x00, 0x07, 0x80] := by decide
/-- F10: the duplicate test is on the id alone. -/
theorem test_fData_duplicate :
    let s := after (.fData 0 0 [0x6F]) holding
    s.st.deliveryQueue = [.payload [0x61]] ∧ s.st.txStream = e5 ++ e5 ∧ s.st.trace = [.accepted, .duplicateFrame] := by decide
/-- E15. -/
theorem test_txData : (after (.txData 1 [0x61, 0x62]) State.reset).st.txStream = e15 := by decide
/-- E11. -/
theorem test_txDataEnd : (after (.txDataEnd 1 [0x62, 0x79, 0x65]) State.reset).st.txStream = e11 := by decide
/-- E6. -/
theorem test_txAck : (after (.txAck 1) sent).st.txStream = e2 ++ e6 := by decide
/-- E8; and nothing is emitted in `Closed`. -/
theorem test_txRst : (after .txRst sent).st.txStream = e2 ++ e8 ∧ (after .txRst aborted).st.txStream = [] := by decide

/-- S2: a one-byte prefix of the marker pair is kept. -/
theorem test_resync : resync sync (List.replicate 13 0 ++ [0xDC]) = [0xDC] := by decide

/-! ### Witnesses: a concrete state and operands for the hypotheses of each statement that has any -/

/-- K19 (c): the words `0x0000` and `0xFFFF` are congruent. -/
theorem witness_ChangedWordChangesTheChecksum :
    ([] : Bytes).length % 2 = 0 ∧ cksum ([] ++ be16 0x0000 ++ [0x12, 0x34]) = cksum ([] ++ be16 0xFFFF ++ [0x12, 0x34]) := by
  decide

theorem witness_ReorderingWordsKeepsTheChecksum : ([0x0001, 0xF203] : List (BitVec 16)).Perm [0xF203, 0x0001] := by decide

theorem witness_EncodeLaysOutTheFrame : hello.length ≤ 4096 ∧ full.length ≤ 4096 := ⟨by decide, full_length.le⟩

theorem witness_EncodeRefusesALongPayload : 4096 < tooLong.length := by rw [tooLong_length]; decide

/-- One witness for each of the six clauses. -/
theorem witness_DecodeTestsInOrder :
    (e2.take 13).length < 14 ∧
    (let b := m ++ [0x00, 0x00, 0x10, 0x01, 0x00, 0x00]; 14 ≤ b.length ∧ 4096 < (be16At b 10).toNat) ∧
    (let b := m ++ [0xEE, 0xF9, 0x10, 0x00, 0x00, 0x00];
      14 ≤ b.length ∧ (be16At b 10).toNat = 4096 ∧ b.length < 14 + (be16At b 10).toNat) ∧
    (let b := e2.set 7 0x42; (be16At b 10).toNat ≤ 4096 ∧ 14 + (be16At b 10).toNat = b.length ∧ be32At b 4 ≠ sync) ∧
    (let b := e2.set 9 0x23; (be16At b 10).toNat ≤ 4096 ∧ 14 + (be16At b 10).toNat ≤ b.length ∧ be32At b 0 = sync ∧
      be32At b 4 = sync ∧ be16At b 8 ≠ cksum (b.take 8 ++ [0, 0] ++ (b.drop 10).take (4 + 5))) ∧
    (let b := e5; (be16At b 10).toNat = 0 ∧ 14 = b.length ∧ be32At b 0 = sync ∧ be32At b 4 = sync ∧
      be16At b 8 = cksum (b.take 8 ++ [0, 0] ++ (b.drop 10).take (4 + 0))) := by decide

theorem witness_DecodeGivesBackWhatEncodeWasGiven : full.length ≤ 4096 ∧ 18 < (buildFrame sync 0 0 hello).length :=
  ⟨full_length.le, by decide⟩

theorem witness_DecodeAcceptsOnlyEncodings :
    Machine.decodeFrame sync (e2 ++ [0xAA, 0xBB]) = .frame 0 0 hello 19 := by decide

theorem witness_DecodeLooksAtTheCandidateOnly : 14 + declaredLength e2 ≤ e2.length := by decide

/-- An inverted bit at the bounds of each clause; the length field once above the bound, once longer within it, and once
shorter. -/
theorem witness_OneInvertedBitIsSeenUnlessItShortensTheFrame :
    hello.length ≤ 4096 ∧ 7 < 8 ∧ 18 < 14 + hello.length ∧
    (let f := buildFrame sync 0 0 hello;
      4096 < declaredLength (f.set 10 (byteAt f 10 ^^^ (1#8 <<< 5))) ∧
      hello.length < declaredLength (f.set 11 (byteAt f 11 ^^^ (1#8 <<< 1))) ∧
      declaredLength (f.set 11 (byteAt f 11 ^^^ (1#8 <<< 1))) ≤ 4096 ∧
      declaredLength (f.set 11 (byteAt f 11 ^^^ (1#8 <<< 0))) = 4) := by decide

theorem witness_EveryOperationDecodesFromItsWord :
    (Instr.txDataEnd 1 full).wf = true ∧ (Instr.fAck 0xFF 0x9F full).wf = true ∧ (Instr.fRst 9 0xFF hello).wf = true ∧
      (Instr.fDataEnd 7 0x5F []).wf = true ∧ (Instr.fData 7 0x1F hello).wf = true ∧ (Instr.send tooLong).wf = true := by
  refine ⟨?_, ?_, by decide, by decide, by decide, rfl⟩
  · simp [Instr.wf, maxPayload, full_length]
  · simp only [Instr.wf, full_length]
    decide

theorem witness_SendTransmitsAndKeepsTheFrame :
    State.reset.st.connState = .idle ∧ State.reset.st.endAcked = false ∧ full.length ≤ 4096 := ⟨rfl, rfl, full_length.le⟩

theorem witness_SendEndTransmitsAndMarksTheEnd :
    holding.st.connState = .idle ∧ holding.st.endAcked = false ∧ ([] : Bytes).length ≤ 4096 := by decide

theorem witness_SendRefusesInOrder :
    aborted.st.connState = .closed ∧ ended.st.endAcked = true ∧
    (State.reset.st.connState ≠ .closed ∧ State.reset.st.endAcked = false ∧ 4096 < tooLong.length) ∧
    (sent.st.connState = .awaitingAck ∧ sent.st.endAcked = false ∧ hello.length ≤ 4096) := by
  rw [tooLong_length]; decide

theorem witness_ReceiveTakesWhatIsReady :
    aborted.st.fatalPending = some .peerReset ∧
    (holding.st.fatalPending = none ∧ holding.st.deliveryQueue = .payload [0x61] :: []) ∧
    ((after (.rxBytes e9) State.reset).st.fatalPending = none ∧
      (after (.rxBytes e9) State.reset).st.deliveryQueue = .endOfStream :: []) ∧
    (State.reset.st.fatalPending = none ∧ State.reset.st.deliveryQueue = []) := by decide

theorem witness_RdstatReadsTheRegisterMap :
    sent.st.receiveBuffer.length < 2 ^ 16 ∧ State.reset.st.outstandingFrame = none ∧
    sent.st.outstandingFrame = some e2 ∧ e2.length < 2 ^ 13 ∧
    10 ≤ (10 : Byte).toNat ∧ (15 : Byte).toNat ≤ 15 ∧ 19 ≤ (19 : Byte).toNat ∧ 19 ≤ (255 : Byte).toNat := by decide

theorem witness_ReceivedRstClosesAndDiscards : holding.st.connState ≠ .closed := by decide

/-- The ACK of a data frame, of the END frame, and of an END frame that completes the exchange. -/
theorem witness_MatchingAckRetiresTheFrame :
    (sent.st.connState ≠ .closed ∧ sent.st.outstandingFrame = some e2 ∧ e2.getD 12 0 = 0 ∧
      (sent.st.endAcked || (e2.getD 13 0).getLsbD 6) = false) ∧
    (let s := after (.sendEnd []) State.reset;
      s.st.connState ≠ .closed ∧ s.st.outstandingFrame = some e9 ∧ e9.getD 12 0 = 0 ∧ s.st.peerEndReceived = false) ∧
    (closing.st.connState ≠ .closed ∧
      (∃ f, closing.st.outstandingFrame = some f ∧ f.getD 12 0 = 0 ∧ (f.getD 13 0).getLsbD 6 = true) ∧
      closing.st.peerEndReceived = true) :=
  ⟨by decide, by decide, by decide, ⟨buildFrame sync 0 0x40 hello, by decide⟩, by decide⟩

theorem witness_StaleAckChangesNothing :
    (State.reset.st.connState ≠ .closed ∧ State.reset.st.outstandingFrame = none) ∧
    (sent.st.connState ≠ .closed ∧ sent.st.outstandingFrame = some e2 ∧ e2.getD 12 0 ≠ 1) := by decide

theorem witness_DuplicateIsAcknowledgedNotDelivered : holding.st.connState ≠ .closed ∧ holding.st.lastAcceptedId = some 0 := by
  decide

/-- The queue has exactly the places the frame needs. -/
theorem witness_NewDataIsAcknowledgedAndQueued :
    (capped 1).st.connState ≠ .closed ∧ (capped 1).st.lastAcceptedId ≠ some 7 ∧ (capped 1).cfg.deliveryCap = some 1 ∧
      (capped 1).st.deliveryQueue.length + 1 = 1 := by decide

/-- With the send half open and with it closed. -/
theorem witness_NewEndIsAcknowledgedQueuedAndMayClose :
    ((capped 2).st.connState ≠ .closed ∧ (capped 2).st.lastAcceptedId ≠ some 0 ∧ (capped 2).cfg.deliveryCap = some 2 ∧
      (capped 2).st.deliveryQueue.length + (endItems hello).length = 2 ∧ (capped 2).st.endAcked = false) ∧
    (ended.st.connState ≠ .closed ∧ ended.st.lastAcceptedId ≠ some 0 ∧ ended.cfg.deliveryCap = none ∧
      ended.st.endAcked = true) := by decide

/-- A full queue; and one place left for a frame that needs two. -/
theorem witness_OverflowingDataIsDropped :
    (let s := after (.fData 0 0 [0x61]) (capped 1);
      s.st.connState ≠ .closed ∧ s.st.lastAcceptedId ≠ some 1 ∧ s.cfg.deliveryCap = some 1 ∧
        1 < s.st.deliveryQueue.length + 1) ∧
    (let s := after (.fData 0 0 [0x61]) (capped 2);
      s.st.connState ≠ .closed ∧ s.st.lastAcceptedId ≠ some 1 ∧ s.cfg.deliveryCap = some 2 ∧
        2 < s.st.deliveryQueue.length + 2) := by decide

theorem witness_ClosedIgnoresFramesAndEmitsNothing :
    aborted.st.connState = .closed ∧ Instr.txRst ∈ [Instr.fRst 0 0 [], .fAck 0 0 [], .fDataEnd 0 0 [], .fData 0 0 [],
      .txData 0 [], .txDataEnd 0 [], .txAck 0, .txRst] := by decide

theorem witness_EmissionsAppendTheirFrame : sent.st.connState ≠ .closed ∧ full.length ≤ 4096 :=
  ⟨by decide, full_length.le⟩

theorem witness_ClosedIgnoresReceivedBytes : aborted.st.connState = .closed := by decide

/-- X14: a buffer of 16 bytes does not take a frame of 19; and an unbounded one. -/
theorem witness_ChunkThatDoesNotFitIsNotAccepted :
    (let s : State := { State.reset with cfg := { rxbufCap := some 16 } };
      s.st.connState ≠ .closed ∧ s.cfg.rxbufCap = some 16 ∧ 16 < s.st.receiveBuffer.length + e2.length) ∧
    (State.reset.st.connState ≠ .closed ∧ State.reset.cfg.rxbufCap = none) := by decide

theorem witness_EmptyChunkChangesNothing :
    let s := after (.rxBytes (e2.take 18)) State.reset
    s.st.receiveBuffer = e2.take 18 ∧ Machine.decodeFrame s.cfg.sync s.st.receiveBuffer = .incomplete := by decide

theorem witness_WholeFrameRunsItsClass :
    let s : State := { State.reset with cfg := { rxbufCap := some 19 } }
    hello.length ≤ 4096 ∧ s.st.connState ≠ .closed ∧ s.st.receiveBuffer = [] ∧ s.cfg.rxbufCap = some 19 ∧
      14 + hello.length = 19 := by decide

/-- A frame without its last byte; each framing error; a whole frame; a marker pair one byte behind the front; three damaged
bytes before a whole frame. Once in a buffer of exactly the bytes' number, the chunk behind bytes held already. -/
theorem witness_ReceivedBytesAreTakenCandidateByCandidate :
    (let s := after (.rxBytes (e2.take 9)) { State.reset with cfg := { rxbufCap := some 18 } };
      s.st.connState ≠ .closed ∧ s.st.receiveBuffer ++ (e2.drop 9).take 9 = e2.take 18 ∧
        s.st.receiveBuffer.length + ((e2.drop 9).take 9).length = 18 ∧ Machine.decodeFrame sync (e2.take 18) = .incomplete) ∧
    (Machine.decodeFrame sync (m ++ [0x00, 0x00, 0x10, 0x01, 0x00, 0x00]) = .framingError .lengthOutOfRange ∧
      Machine.decodeFrame sync (e2.set 0 0xDD) = .framingError .invalidSync ∧
      Machine.decodeFrame sync (e2.set 9 0x23) = .framingError .checksumMismatch) ∧
    Machine.decodeFrame sync (e14 ++ e15) = .frame 0 0x00 [0x61] 15 ∧
    (0x00 :: e2 = [0x00] ++ (be32 sync ++ be32 sync) ++ e2.drop 8) ∧
    (let b := [0x01, 0x02, 0x03] ++ buildFrame sync 0 0x00 hello ++ e14;
      b = [0x01, 0x02, 0x03] ++ e2 ++ e14 ∧ Machine.decodeFrame sync b = .framingError .lengthOutOfRange ∧
        ∀ j, 1 ≤ j → j < 3 → ¬(b.drop j).take 8 = (be32 sync ++ be32 sync).take (b.length - j)) := by
  refine ⟨by decide, by decide, by decide, by decide, by decide, by decide, ?_⟩
  intro j h1 h2
  obtain rfl | rfl : j = 1 ∨ j = 2 := by omega
  all_goals decide

theorem witness_ResyncStopsAtTheNextPossibleFrame : e2.set 0 0xDD ≠ [] := by decide

/-- A frame's first bytes in the buffer, and exactly the room for the rest. -/
theorem witness_ReceivedBytesLeaveNoCompleteCandidate :
    let s := after (.rxBytes (e2.take 9)) { State.reset with cfg := { rxbufCap := some 19 } }
    s.st.connState ≠ .closed ∧ s.cfg.rxbufCap = some 19 ∧ s.st.receiveBuffer.length + (e2.drop 9).length = 19 := by decide

theorem witness_ExtractionEndsWithinTheBuffer :
    let c := { Conn.reset with receiveBuffer := e14 ++ e15 }
    c.receiveBuffer.length + 1 ≤ 40 := by decide

/-- Two frames and five bytes of a third, in three chunks, one of them empty. -/
theorem witness_ChunkingOfAnUndamagedStreamDoesNotMatter :
    let frames : List (Byte × Byte × Bytes) := [(0, 0, [0x61]), (1, 0, [0x61, 0x62])]
    let wire : Byte × Byte × Bytes → Bytes := fun f => buildFrame sync f.1 f.2.1 f.2.2
    let stream := frames.flatMap wire ++ (wire (0, 0x40, hello)).take 5
    State.reset.cfg.sync = sync ∧ (∀ f ∈ frames, f.2.2.length ≤ 4096) ∧ hello.length ≤ 4096 ∧ 5 < 14 + hello.length ∧
      [e14.take 3, [], e14.drop 3 ++ e15 ++ e2.take 5].flatten = stream ∧
      State.reset.st.receiveBuffer = [] ∧ State.reset.cfg.rxbufCap = none := by decide

theorem witness_ExpiryOfADisarmedTimerDoesNothing : holding.st.timerArmed = false := by decide

/-- The last expiry that retransmits. -/
theorem witness_ExpiryRetransmitsTheSameBytes :
    let s : State := { sent with st := { sent.st with retryCount := 15 } }
    s.st.timerArmed = true ∧ s.st.outstandingFrame = some e2 ∧ s.st.retryCount.toNat + 1 = s.cfg.retryCeiling.toNat := by
  decide

/-- The first expiry that does not. -/
theorem witness_ExpiryBeyondTheCeilingAborts :
    let s : State := { sent with st := { sent.st with retryCount := 16 } }
    s.st.timerArmed = true ∧ s.cfg.retryCeiling.toNat < s.st.retryCount.toNat + 1 ∧ s.st.retryCount.toNat < 255 := by decide

theorem witness_UnansweredFrameIsRetriedUpToTheCeiling :
    sent.st.timerArmed = true ∧ sent.st.outstandingFrame = some e2 ∧ sent.st.retryCount = 0 ∧
      sent.cfg.retryCeiling.toNat < 255 := by decide

theorem witness_ChannelClosureClosesAndKeepsTheQueue :
    holding.st.connState ≠ .closed ∧ aborted.st.connState = .closed := by decide

theorem witness_ReservedCodesAreRefused :
    Instr.reserved0 ∈ [Instr.reserved0, .reservedB, .reservedC, .reservedD, .reservedE] ∧
    Instr.reservedE ∈ [Instr.reserved0, .reservedB, .reservedC, .reservedD, .reservedE] := by decide

theorem witness_StepRunsTheDecodedEvent :
    (State.reset.withFetchWord 8 0x6).slots = [{ op := 0x6 }] :: [] ∧
    decode State.reset.cfg.sync (.cmd { op := 0x6 }) = .ok .receive ∧ State.reset.slots = [] := by decide

theorem witness_SlotIsServedInTheArbitersOrder :
    let slot : List EventWord := [{ op := 0x4 }, { op := 0xA }, { op := 0x8 }, { op := 0x9 }]
    let s : State := { sent with slots := slot :: [] }
    s.slots = slot :: [] ∧ slot ≠ [] ∧
      (match step s with | .next t => t.slots | _ => []) = [[{ op := 0x4 }, { op := 0xA }, { op := 0x9 }]] := by decide

/-- Two pairs of one rank: the first chunk presented is taken first, and a reserved code stands with the host commands. -/
theorem witness_SlotIsServedInTheArbitersOrder_ties :
    let chunk : Bytes → EventWord := fun b => { op := 0x8, args := { bytes := b } }
    let slot : List EventWord := [{ op := 0xB }, chunk (e14.take 9), { op := 0x6 }, chunk (e14.drop 9)]
    let s : State := { State.reset with slots := slot :: [] }
    s.slots = slot :: [] ∧ slot ≠ [] ∧
      (match step s with | .next t => (t.slots, t.st.receiveBuffer) | _ => ([], [])) =
        ([[{ op := 0xB }, { op := 0x6 }, chunk (e14.drop 9)]], e14.take 9) := by decide

/-- A state with an outstanding frame has the invariants. -/
theorem sent_inv : sent.Inv := by
  refine ⟨by decide, ?_⟩
  have hq : sent.st.deliveryQueue = [] := by decide
  have hf : sent.st.fatalPending = none := by decide
  have hk : sent.st.closeCause = none := by decide
  have ho : sent.st.outstandingFrame = some (sent.st.sendFrame sent.cfg.sync false hello) := by decide
  constructor
  case outstanding_form =>
    intro f h
    exact ⟨false, hello, by decide, Option.some.inj (h.symm.trans ho), by simp⟩
  case unacked_end => intro h; exact absurd h (by decide)
  case end_queued => simp [hq]
  case payload_bound => simp [hq]
  case fatal_of_cause => simp [hf]
  case aborted_queue => simp [hk]
  all_goals decide

/-- The step is the matching ACK's. -/
theorem witness_EveryStepKeepsTheInvariants :
    let s : State := { sent with slots := [[{ op := 0x8, args := { bytes := e5 } }]] }
    s.Inv ∧ (∃ t, step s = .next t) ∧ (match step s with | .next t => regs t | _ => []) = [0, 1, 0, 0, 0, 0, 0, 0, 0, 0] :=
  ⟨sent_inv, ⟨_, rfl⟩, by decide⟩

theorem witness_OnlyWholeFramesOfTheFourShapesAreEmitted :
    sent.Inv ∧ (Instr.rxBytes e14).wf = true ∧ Instr.rxBytes e14 ≠ .reset ∧
      exec (.rxBytes e14) sent = .next (after (.rxBytes e14) sent) :=
  ⟨sent_inv, rfl, by decide, rfl⟩

theorem witness_HistoryAndTerminationFlagsOnlyGrow :
    Instr.timerExpire ≠ .reset ∧ exec .timerExpire sent = .next (after .timerExpire sent) := ⟨by decide, rfl⟩

theorem witness_ClosedIsTerminal :
    Instr.receive ≠ .reset ∧ aborted.st.connState = .closed ∧ aborted.st.timerArmed = false ∧
      exec .receive aborted = .next (after .receive aborted) := ⟨by decide, by decide, by decide, rfl⟩

/-- A matching ACK: as the frame alone, and in received bytes between a damaged byte and a data frame. -/
theorem witness_StateChangesAreTheTransitionTable :
    (sent.Inv ∧ (∀ chunk, Instr.fAck 0 0x80 [] ≠ .rxBytes chunk) ∧
      exec (.fAck 0 0x80 []) sent = .next (after (.fAck 0 0x80 []) sent) ∧
      (after (.fAck 0 0x80 []) sent).st.connState ≠ sent.st.connState) ∧
    (exec (.rxBytes ([0x00] ++ e5 ++ e14)) sent = .next (after (.rxBytes ([0x00] ++ e5 ++ e14)) sent) ∧
      (after (.rxBytes ([0x00] ++ e5 ++ e14)) sent).st.connState ≠ sent.st.connState) :=
  ⟨⟨sent_inv, by simp, rfl, by decide⟩, rfl, by decide⟩

/-- Each field changed: by a matching ACK alone and in received bytes, by an accepted END, a send, an expiry. -/
theorem witness_FieldsHaveTheirWritersOnly :
    (∀ i ∈ [Instr.fAck 0 0x80 [], .rxBytes e5, .rxBytes e9, .sendEnd hello, .timerExpire], i ≠ .reset ∧
      ∀ s, ∃ t, exec i s = .next t) ∧
    (∀ i ∈ [Instr.fAck 0 0x80 [], .rxBytes e5], (after i sent).st.nextSendId ≠ sent.st.nextSendId ∧
      (after i sent).st.timerArmed ≠ sent.st.timerArmed ∧ (after i sent).st.outstandingFrame ≠ sent.st.outstandingFrame) ∧
    (let s := after (.sendEnd []) State.reset; (after (.rxBytes e5) s).st.endAcked ≠ s.st.endAcked) ∧
    (let t := after (.rxBytes e9) State.reset;
      t.st.lastAcceptedId ≠ State.reset.st.lastAcceptedId ∧ t.st.peerEndReceived ≠ State.reset.st.peerEndReceived) ∧
    (let t := after (.sendEnd hello) State.reset;
      t.st.endSent ≠ State.reset.st.endSent ∧ t.st.outstandingFrame ≠ State.reset.st.outstandingFrame ∧
        t.st.timerArmed ≠ State.reset.st.timerArmed) ∧
    (after .timerExpire sent).st.retryCount ≠ sent.st.retryCount := by
  refine ⟨?_, by decide, by decide, by decide, by decide, by decide⟩
  simp [exec, execFAck, execRxBytes, execSendEnd, execTimerExpire]

theorem witness_NoOperationReadsTheTrace :
    exec (.rxBytes e14) sent = .next (after (.rxBytes e14) sent) := rfl

/-- Two machines right after reset. -/
theorem witness_OnePayloadCrossesTheChannelOnce :
    State.reset.cfg.sync = (capped 1).cfg.sync ∧ full.length ≤ 4096 ∧
    State.reset.st.connState = .idle ∧ State.reset.st.endAcked = false ∧ State.reset.st.receiveBuffer = [] ∧
    State.reset.cfg.rxbufCap = none ∧ (capped 1).st.connState ≠ .closed ∧ (capped 1).st.receiveBuffer = [] ∧
    (capped 1).st.lastAcceptedId ≠ some State.reset.st.nextSendId ∧ (capped 1).cfg.rxbufCap = none ∧
    (capped 1).cfg.deliveryCap = some 1 ∧ (capped 1).st.deliveryQueue.length + 1 = 1 :=
  ⟨rfl, full_length.le, by decide⟩

end Sys2Proof.Tests
end

/-! The scope of an operation and of a step (spec/00_scope.md): every one answers a next state, and of the machine an operation
changes the Connection and the response only. -/

namespace Sys2Proof.Machine

/-- What has no response of its own answers with the last one. -/
theorem next_withConn (s : State) (c : Conn) :
    (.next (s.withConn c) : Host.Outcome State Fault Refusal) = .next ((s.withConn c).answer s.response) := rfl

/-- An operation writes the Connection and the response and nothing else. The pure commands and the reserved codes keep the
Connection (R74, R75); a received or emitted frame keeps the last response, having none of its own (R74). -/
theorem exec_eq_withConn_answer (i : Instr) (s : State) :
    ∃ c r, exec i s = .next ((s.withConn c).answer r) := by
  cases i with
  | cksum | encodeFrame | decodeFrame | rdstat | reserved0 | reservedB | reservedC | reservedD | reservedE =>
    exact ⟨s.st, _, rfl⟩
  | send | sendEnd | receive | rxBytes | chClose | timerExpire | reset => exact ⟨_, _, rfl⟩
  | fRst | fAck | fDataEnd | fData | txData | txDataEnd | txAck | txRst =>
    exact ⟨_, s.response, next_withConn s _⟩

/-- No operation faults or is refused by the host's interface, and none touches the configuration (R211) or the schedule. -/
theorem exec_answers_keeping_cfg_slots (i : Instr) (s : State) :
    ∃ t, exec i s = .next t ∧ t.cfg = s.cfg ∧ t.slots = s.slots := by
  obtain ⟨c, r, h⟩ := exec_eq_withConn_answer i s
  exact ⟨_, h, by simp, by simp⟩

/-- A step waits or is an operation on the state without its event, so it keeps the configuration too (R50, R210, R211). -/
theorem step_answers_keeping_cfg (s : State) : ∃ t, step s = .next t ∧ t.cfg = s.cfg := by
  cases hn : nextEvent s.slots with
  | none => exact ⟨s, step_of_no_event hn, rfl⟩
  | some taken =>
    obtain ⟨e, rest⟩ := taken
    obtain ⟨t, ht, hcfg, -⟩ := exec_answers_keeping_cfg_slots (decodeEvent e) { s with slots := rest }
    exact ⟨t, (step_of_nextEvent hn).trans ht, hcfg⟩

/-- Settles O49: what every operation answers (R9, R167), and through it every step. -/
theorem everyStepAnswersANextState : Obligations.EveryStepAnswersANextState :=
  ⟨exec_answers_keeping_cfg_slots, step_answers_keeping_cfg⟩

end Sys2Proof.Machine

section
/-! The Connection that an operation leaves, as a function of the configuration and the Connection alone, and the reset state. -/

namespace Sys2Proof.Machine

/-- The Connection that an operation leaves; `st_of_exec` ties it to `exec`. -/
def Conn.after (cfg : Config) (c : Conn) : Instr → Conn
  | .send payload => (c.send cfg.sync false payload).2
  | .sendEnd payload => (c.send cfg.sync true payload).2
  | .receive => c.receive.2
  | .rxBytes chunk => (c.rx cfg chunk).2
  | .chClose => c.whenOpen (Conn.close .channelClosed)
  | .timerExpire => c.timerExpire cfg
  | .reset => c.reopen
  | .fRst _ _ _ => c.whenOpen Conn.onRst
  | .fAck id _ _ => c.whenOpen (Conn.onAck id)
  | .fDataEnd id _ payload => c.whenOpen (Conn.onDataEnd cfg id payload)
  | .fData id _ payload => c.whenOpen (Conn.onDataPlain cfg id payload)
  | .txData id payload => c.emitEncoded cfg.sync id 0x00 payload
  | .txDataEnd id payload => c.emitEncoded cfg.sync id flagEnd payload
  | .txAck id => c.emitEncoded cfg.sync id flagAck []
  | .txRst => c.emitEncoded cfg.sync 0x00 flagRst []
  | .cksum _ | .encodeFrame _ _ _ | .decodeFrame _ | .rdstat _ => c
  | .reserved0 | .reservedB | .reservedC | .reservedD | .reservedE => c

theorem st_of_exec {i : Instr} {s t : State} (h : exec i s = .next t) : t.st = s.st.after s.cfg i := by
  cases i <;> cases h <;> rfl

/-- A property that a procedure keeps while the connection is open is kept when the procedure is guarded (R126, R167). -/
theorem Conn.whenOpen_of {P : Conn → Prop} {f : Conn → Conn} {c : Conn} (closed : P c)
    (isOpen : c.connState ≠ .closed → P (f c)) : P (c.whenOpen f) := by
  by_cases h : c.connState = .closed
  · rwa [Conn.whenOpen_closed h]
  · rw [Conn.whenOpen_open h]
    exact isOpen h

/-- Settles O46: `Conn.reset` is written as R29's table. -/
theorem resetStateIsTheTable : Obligations.ResetStateIsTheTable := rfl

/-- The Connection after reset has the invariants under every configuration (R28, R29). -/
theorem Conn.reset_inv (cfg : Config) : Conn.reset.Inv cfg := by
  constructor
  case buffer_incomplete => rfl
  case retry_bound => exact Nat.zero_le _
  case queue_bound => cases h : cfg.deliveryCap <;> simp [capAllows, Conn.reset]
  all_goals simp [Conn.reset]

/-- Settles O50: the default configuration is within R7's bounds, and the Connection after reset has the invariants under
every configuration. -/
theorem resetHasTheInvariants : Obligations.ResetHasTheInvariants := ⟨by decide, Conn.reset_inv _⟩

end Sys2Proof.Machine
end

section
/-! The status registers (spec/10_state.md R25), register by register. -/

namespace Sys2Proof.Machine

/-- `RDSTAT` answers the register's content and changes nothing but the response (R172). -/
theorem exec_rdstat_of_content {s : State} {n : Byte} {v : BitVec 32}
    (h : BitVec.ofNat 32 (statusContent s.cfg s.st n) = v) :
    exec (.rdstat n) s = .next { s with response := some (.register v) } := by
  subst h
  rfl

/-- Register 2 shows the valid bit above the id (R13, R25). -/
theorem validBit_above_id (id : Byte) : BitVec.ofNat 32 (256 + id.toNat) = 0x100 ||| id.setWidth 32 := by
  have hid : id.toNat < 2 ^ 8 := id.isLt
  have hor : 256 + id.toNat = 256 ||| id.toNat := Nat.two_pow_add_eq_or_of_lt hid 1
  rw [hor]
  apply BitVec.eq_of_toNat_eq
  simp [BitVec.toNat_ofNat, BitVec.toNat_or]

/-- Six bits summed with their weights are the six low bits of the word (register 4, R25). -/
theorem bits_of_weighted_sum (b0 b1 b2 b3 b4 b5 : Bool) :
    let v := BitVec.ofNat 32 (b0.toNat + 2 * b1.toNat + 4 * b2.toNat + 8 * b3.toNat + 16 * b4.toNat + 32 * b5.toNat)
    v.getLsbD 0 = b0 ∧ v.getLsbD 1 = b1 ∧ v.getLsbD 2 = b2 ∧ v.getLsbD 3 = b3 ∧ v.getLsbD 4 = b4 ∧ v.getLsbD 5 = b5 ∧
      v.toNat < 64 := by
  revert b0 b1 b2 b3 b4 b5
  decide

/-- A number outside the map reads 0 (R25). -/
theorem statusContent_unmapped (cfg : Config) (c : Conn) {n : Byte}
    (h : (10 ≤ n.toNat ∧ n.toNat ≤ 15) ∨ 19 ≤ n.toNat) : statusContent cfg c n = 0 := by
  unfold statusContent
  split <;> omega

/-- Settles O21: each register's content as R25 gives it. -/
theorem rdstatReadsTheRegisterMap : Obligations.RdstatReadsTheRegisterMap := by
  intro s
  refine ⟨?conn_state, ?next_send_id, ?last_accepted_id, ?retry_count, ?flags, ?close_cause, ?fatal_pending, ?rxbuf_len,
    ?queue_len, ?no_frame, ?frame_len, ?sync, ?retry_ceiling, ?max_payload, ?unmapped⟩
  case flags => exact ⟨_, rfl, bits_of_weighted_sum ..⟩
  case rxbuf_len =>
    intro hlen
    exact exec_rdstat_of_content (congrArg (BitVec.ofNat 32) (Nat.mod_eq_of_lt hlen))
  case no_frame => exact fun h => exec_rdstat_of_content (by simp [statusContent, h])
  case frame_len =>
    intro f hf hlen
    exact exec_rdstat_of_content (by
      simpa [statusContent, hf] using congrArg (BitVec.ofNat 32) (Nat.mod_eq_of_lt hlen))
  case unmapped => exact fun n hn => exec_rdstat_of_content (by rw [statusContent_unmapped _ _ hn]; rfl)
  all_goals apply exec_rdstat_of_content
  case conn_state => cases h : s.st.connState <;> simp [statusContent, ConnState.code, h]
  case next_send_id => exact BitVec.ofNat_toNat 32 _
  case last_accepted_id =>
    cases h : s.st.lastAcceptedId with
    | none => simp [statusContent, h]
    | some id => simpa [statusContent, h] using validBit_above_id id
  case retry_count => exact BitVec.ofNat_toNat 32 _
  case close_cause =>
    rcases h : s.st.closeCause with _ | cause
    · simp [statusContent, h]
    · cases cause <;> simp [statusContent, Cause.code, h]
  case fatal_pending =>
    rcases h : s.st.fatalPending with _ | kind
    · simp [statusContent, h]
    · cases kind <;> simp [statusContent, Abort.code, h]
  case queue_len =>
    show BitVec.ofNat 32 (min s.st.deliveryQueue.length 0xFFFF) = _
    split
    · rw [Nat.min_eq_left (by assumption)]
    · rw [Nat.min_eq_right (by omega)]
      rfl
  case sync => exact BitVec.ofNat_toNat 32 _
  case retry_ceiling => exact BitVec.ofNat_toNat 32 _
  case max_payload => rfl

end Sys2Proof.Machine
end

section
/-! What only grows while a connection lives (R19, R21, R22). -/

namespace Sys2Proof.Machine

/-- From `c` to `d` nothing emitted or recorded is taken back and no termination flag is cleared. -/
structure Conn.Grows (c d : Conn) : Prop where
  txStream : c.txStream <+: d.txStream
  trace : c.trace <+: d.trace
  endSent : c.endSent = true → d.endSent = true
  endAcked : c.endAcked = true → d.endAcked = true
  peerEndReceived : c.peerEndReceived = true → d.peerEndReceived = true

namespace Conn.Grows
variable {c d : Conn}

theorem refl (c : Conn) : c.Grows c := ⟨List.prefix_rfl, List.prefix_rfl, id, id, id⟩

theorem trans {e : Conn} (h : c.Grows d) (h' : d.Grows e) : c.Grows e where
  txStream := h.txStream.trans h'.txStream
  trace := h.trace.trans h'.trace
  endSent := h'.endSent ∘ h.endSent
  endAcked := h'.endAcked ∘ h.endAcked
  peerEndReceived := h'.peerEndReceived ∘ h.peerEndReceived

/-! ### The state operations -/

theorem emit (b : Bytes) (h : c.Grows d) : c.Grows (d.emit b) :=
  h.trans ⟨List.prefix_append _ _, List.prefix_rfl, id, id, id⟩

theorem record (t : Tag) (h : c.Grows d) : c.Grows (d.record t) :=
  h.trans ⟨List.prefix_rfl, List.prefix_append _ _, id, id, id⟩

theorem close (k : Cause) (h : c.Grows d) : c.Grows (d.close k) :=
  h.trans ⟨List.prefix_rfl, List.prefix_rfl, id, id, id⟩

theorem transmit (f : Bytes) (isEnd : Bool) (h : c.Grows d) : c.Grows (d.transmit f isEnd) :=
  h.trans ⟨List.prefix_append _ _, List.prefix_rfl, by simp +contextual, id, id⟩

theorem retire (wasEnd : Bool) (h : c.Grows d) : c.Grows (d.retire wasEnd) :=
  h.trans ⟨List.prefix_rfl, List.prefix_append _ _, id, by simp +contextual, id⟩

theorem accept (sync : BitVec 32) (id : Byte) (items : List Item) (h : c.Grows d) :
    c.Grows (d.accept sync id items) :=
  h.trans ⟨List.prefix_append _ _, List.prefix_append _ _, fun h => h, fun h => h, fun h => h⟩

theorem markPeerEnd (h : c.Grows d) : c.Grows { d with peerEndReceived := true } :=
  h.trans ⟨List.prefix_rfl, List.prefix_rfl, id, id, fun _ => rfl⟩

theorem checkDone (h : c.Grows d) : c.Grows d.checkDone := by
  rcases d.checkDone_cases with ⟨-, -, -, e⟩ | ⟨-, e⟩ <;> rw [e]
  · exact h.close .normal
  · exact h

/-! ### The operations -/

theorem send (sync : BitVec 32) (isEnd : Bool) (payload : Bytes) (c : Conn) :
    c.Grows (c.send sync isEnd payload).2 := by
  rcases c.send_cases sync isEnd payload with ⟨-, e⟩ | ⟨-, -, -, e⟩ | ⟨-, -, -, e⟩ | ⟨-, -, -, e⟩ <;> rw [e]
  case inr.inr.inr => exact (refl c).transmit _ isEnd
  all_goals exact refl c

theorem receive (c : Conn) : c.Grows c.receive.2 := by
  rcases c.receive_cases with ⟨k, -, e⟩ | ⟨item, rest, -, -, e⟩ | ⟨-, -, e, -⟩ <;> rw [e] <;>
    exact ⟨List.prefix_rfl, List.prefix_rfl, id, id, id⟩

theorem onRst (c : Conn) : c.Grows c.onRst := ((refl c).record .peerReset).close .peerReset

theorem onAck (id : Byte) (c : Conn) : c.Grows (c.onAck id) := by
  rcases c.onAck_cases id with ⟨f, -, -, e⟩ | ⟨-, e⟩ <;> rw [e]
  · exact ((refl c).retire _).checkDone
  · exact (refl c).record .staleAck

theorem onData (cfg : Config) (id : Byte) (items : List Item) (c : Conn) {accepted : Conn → Conn}
    (haccepted : ∀ d : Conn, d.Grows (accepted d)) : c.Grows (c.onData cfg id items accepted) := by
  rcases c.onData_cases cfg id items accepted with ⟨-, e⟩ | ⟨-, -, e⟩ | ⟨-, -, e⟩ <;> rw [e]
  · exact ((refl c).record .duplicateFrame).emit _
  · exact (refl c).record .deliveryOverflow
  · exact ((refl c).accept cfg.sync id items).trans (haccepted _)

theorem onDataPlain (cfg : Config) (id : Byte) (payload : Bytes) (c : Conn) :
    c.Grows (c.onDataPlain cfg id payload) := onData cfg id _ c refl

theorem onDataEnd (cfg : Config) (id : Byte) (payload : Bytes) (c : Conn) :
    c.Grows (c.onDataEnd cfg id payload) := onData cfg id _ c fun d => (refl d).markPeerEnd.checkDone

theorem dispatch (cfg : Config) (id flags : Byte) (payload : Bytes) (c : Conn) :
    c.Grows (c.dispatch cfg id flags payload) := by
  unfold Conn.dispatch
  split
  · exact onRst c
  · exact onAck id c
  · exact onDataEnd cfg id payload c
  · exact onDataPlain cfg id payload c

/-- What is buffered is no part of what grows. -/
theorem rebuffer (h : c.Grows d) (b : Bytes) : c.Grows { d with receiveBuffer := b } :=
  ⟨h.txStream, h.trace, h.endSent, h.endAcked, h.peerEndReceived⟩

theorem rx (cfg : Config) (chunk : Bytes) (c : Conn) : c.Grows (c.rx cfg chunk).2 := by
  rcases c.rx_cases cfg chunk with ⟨-, e⟩ | ⟨-, -, e⟩ | ⟨-, -, e⟩ <;> rw [e]
  case inr.inr =>
    refine Conn.extract_induction (P := c.Grows) ?frame ?error _ _ ((refl c).rebuffer _)
    case frame => exact fun d id flags payload n h _ => (h.rebuffer _).trans (dispatch cfg id flags payload _)
    case error => exact fun d kind h _ => (h.record kind.tag).rebuffer _
  all_goals exact refl c

theorem timerExpire (cfg : Config) (c : Conn) : c.Grows (c.timerExpire cfg) := by
  have counted : c.Grows { c with retryCount := c.retryCount + 1 } :=
    ⟨List.prefix_rfl, List.prefix_rfl, id, id, id⟩
  rcases c.timerExpire_cases cfg with ⟨-, e⟩ | ⟨-, -, e⟩ | ⟨-, -, e⟩ <;> rw [e]
  · exact refl c
  · exact ((counted.record _).emit _).close _
  · exact counted.emit _

theorem emitEncoded (sync : BitVec 32) (id flags : Byte) (payload : Bytes) (c : Conn) :
    c.Grows (c.emitEncoded sync id flags payload) := by
  rcases c.emitEncoded_cases sync id flags payload with ⟨-, -, e⟩ | ⟨-, e⟩ <;> rw [e]
  · exact (refl c).emit _
  · exact refl c

theorem whenOpen {f : Conn → Conn} (c : Conn) (h : c.Grows (f c)) : c.Grows (c.whenOpen f) :=
  Conn.whenOpen_of (refl c) fun _ => h

/-- No operation but `RESET` takes anything back. -/
theorem after (cfg : Config) (c : Conn) {i : Instr} (hi : i ≠ .reset) : c.Grows (c.after cfg i) := by
  cases i with
  | reset => exact absurd rfl hi
  | send payload => exact send cfg.sync false payload c
  | sendEnd payload => exact send cfg.sync true payload c
  | receive => exact receive c
  | rxBytes chunk => exact rx cfg chunk c
  | chClose => exact whenOpen c ((refl c).close .channelClosed)
  | timerExpire => exact timerExpire cfg c
  | fRst => exact whenOpen c (onRst c)
  | fAck id => exact whenOpen c (onAck id c)
  | fDataEnd id _ payload => exact whenOpen c (onDataEnd cfg id payload c)
  | fData id _ payload => exact whenOpen c (onDataPlain cfg id payload c)
  | txData id payload => exact emitEncoded cfg.sync id 0x00 payload c
  | txDataEnd id payload => exact emitEncoded cfg.sync id flagEnd payload c
  | txAck id => exact emitEncoded cfg.sync id flagAck [] c
  | txRst => exact emitEncoded cfg.sync 0x00 flagRst [] c
  | cksum | encodeFrame | decodeFrame | rdstat => exact refl c
  | reserved0 | reservedB | reservedC | reservedD | reservedE => exact refl c

end Conn.Grows

/-- Settles O53: each field of `Conn.Grows` for the Connection that the operation leaves. -/
theorem historyAndTerminationFlagsOnlyGrow : Obligations.HistoryAndTerminationFlagsOnlyGrow := by
  intro s t i hi h
  rw [st_of_exec h]
  obtain ⟨tx, trace, sent, acked, peerEnd⟩ := Conn.Grows.after s.cfg s.st hi
  exact ⟨tx, trace, sent, acked, peerEnd⟩

end Sys2Proof.Machine
end

section
/-! What an operation does not read of the Connection. The handling of a frame reads neither the trace (R22) nor the bytes
still buffered (R121); both facts are the one argument of this part, for any part of the Connection that is left `Unread`. -/

namespace Sys2Proof.Machine

/-- `f` does not read what `put` overwrites: with it overwritten beforehand, `f` leaves the same but for it. -/
def Blind {X : Type} (put : X → Conn → Conn) (f : Conn → Conn) : Prop :=
  ∀ x c, ∃ y, f (put x c) = put y (f c)

/-- What `put` overwrites is read by no test of the frame handling and by no state operation of it. -/
structure Unread {X : Type} (put : X → Conn → Conn) : Prop where
  connState : ∀ x c, (put x c).connState = c.connState
  lastAcceptedId : ∀ x c, (put x c).lastAcceptedId = c.lastAcceptedId
  outstandingFrame : ∀ x c, (put x c).outstandingFrame = c.outstandingFrame
  deliveryQueue : ∀ x c, (put x c).deliveryQueue = c.deliveryQueue
  endAcked : ∀ x c, (put x c).endAcked = c.endAcked
  peerEndReceived : ∀ x c, (put x c).peerEndReceived = c.peerEndReceived
  emit : ∀ b, Blind put (Conn.emit b)
  record : ∀ t, Blind put (Conn.record t)
  close : ∀ k, Blind put (Conn.close k)
  retire : ∀ e, Blind put (Conn.retire e)
  accept : ∀ sync id items, Blind put (Conn.accept sync id items)
  markPeerEnd : Blind put fun c => { c with peerEndReceived := true }

namespace Blind
variable {X : Type} {put : X → Conn → Conn} {f g : Conn → Conn}

theorem self : Blind put fun c => c := fun x _ => ⟨x, rfl⟩

theorem comp (hg : Blind put g) (hf : Blind put f) : Blind put fun c => g (f c) := by
  intro x c
  obtain ⟨y, hy⟩ := hf x c
  obtain ⟨z, hz⟩ := hg y (f c)
  exact ⟨z, (congrArg g hy).trans hz⟩

theorem ite {p : Conn → Prop} [DecidablePred p] (hp : ∀ x c, p (put x c) ↔ p c) (hf : Blind put f) (hg : Blind put g) :
    Blind put fun c => if p c then f c else g c := by
  intro x c
  by_cases h : p c
  · simpa [h, hp] using hf x c
  · simpa [h, hp] using hg x c

end Blind

namespace Unread
variable {X : Type} {put : X → Conn → Conn} (hput : Unread put)
include hput

theorem checkDone : Blind put Conn.checkDone :=
  .ite (fun x c => by rw [hput.endAcked, hput.peerEndReceived, hput.connState]) (hput.close .normal) .self

theorem whenOpen {f : Conn → Conn} (hf : Blind put f) : Blind put (Conn.whenOpen f) :=
  .ite (fun x c => by rw [hput.connState]) .self hf

theorem onRst : Blind put Conn.onRst := (hput.close .peerReset).comp (hput.record .peerReset)

theorem onAck (id : Byte) : Blind put (Conn.onAck id) := by
  intro x c
  unfold Conn.onAck
  rw [hput.outstandingFrame]
  cases c.outstandingFrame with
  | none => exact hput.record .staleAck x c
  | some f =>
    dsimp only
    split
    · exact hput.checkDone.comp (hput.retire _) x c
    · exact hput.record .staleAck x c

theorem onData (cfg : Config) (id : Byte) (items : List Item) {accepted : Conn → Conn} (ha : Blind put accepted) :
    Blind put fun c => c.onData cfg id items accepted :=
  .ite (fun x c => by rw [hput.lastAcceptedId]) ((hput.emit _).comp (hput.record .duplicateFrame))
    (.ite (fun x c => by rw [hput.deliveryQueue]) (hput.record .deliveryOverflow)
      (ha.comp (hput.accept cfg.sync id items)))

theorem onDataPlain (cfg : Config) (id : Byte) (payload : Bytes) : Blind put (Conn.onDataPlain cfg id payload) :=
  hput.onData cfg id _ .self

theorem onDataEnd (cfg : Config) (id : Byte) (payload : Bytes) : Blind put (Conn.onDataEnd cfg id payload) :=
  hput.onData cfg id _ (hput.checkDone.comp hput.markPeerEnd)

theorem dispatch (cfg : Config) (id flags : Byte) (payload : Bytes) : Blind put (Conn.dispatch cfg id flags payload) := by
  unfold Conn.dispatch
  cases frameClass flags with
  | rst => exact hput.onRst
  | ack => exact hput.onAck id
  | dataEnd => exact hput.onDataEnd cfg id payload
  | data => exact hput.onDataPlain cfg id payload

theorem emitEncoded (sync : BitVec 32) (id flags : Byte) (payload : Bytes) :
    Blind put (Conn.emitEncoded sync id flags payload) := by
  unfold Conn.emitEncoded
  cases encodeFrame sync id flags payload with
  | none => exact .self
  | some f => exact hput.whenOpen (hput.emit f)

end Unread
end Sys2Proof.Machine
end

section
/-! The trace is read by no operation (R22). -/

namespace Sys2Proof.Machine

/-- The Connection with another trace. -/
def Conn.retrace (tags : List Tag) (c : Conn) : Conn := { c with trace := tags }

theorem trace_unread : Unread Conn.retrace := by
  constructor
  case emit | record | close | retire | accept | markPeerEnd => intros; intro tags c; exact ⟨_, rfl⟩
  all_goals exact fun _ _ => rfl

namespace Blind

theorem extract_retrace (cfg : Config) (k : Nat) : Blind Conn.retrace (Conn.extract cfg k) := by
  induction k with
  | zero => exact .self
  | succ k ih =>
    intro tags c
    cases hd : decodeFrame cfg.sync c.receiveBuffer with
    | incomplete =>
      rw [Conn.extract_incomplete k hd, Conn.extract_incomplete (c := c.retrace tags) k hd]
      exact ⟨tags, rfl⟩
    | framingError kind =>
      rw [Conn.extract_error k hd, Conn.extract_error (c := c.retrace tags) k hd]
      exact ih (tags ++ [kind.tag]) { c.record kind.tag with receiveBuffer := resync cfg.sync c.receiveBuffer }
    | frame id flags payload n =>
      rw [Conn.extract_frame k hd, Conn.extract_frame (c := c.retrace tags) k hd]
      have handled : Blind Conn.retrace fun d => if d.connState = .closed then d else d.extract cfg k :=
        .ite (fun _ _ => Iff.rfl) .self ih
      exact handled.comp (trace_unread.dispatch cfg id flags payload) tags
        { c with receiveBuffer := c.receiveBuffer.drop n }

theorem timerExpire_retrace (cfg : Config) : Blind Conn.retrace (Conn.timerExpire cfg) :=
  .ite (fun _ _ => Iff.rfl) .self (.ite (fun _ _ => Iff.rfl) (fun _ _ => ⟨_, rfl⟩) fun tags _ => ⟨tags, rfl⟩)

end Blind

/-! ### The operations that answer: the answer is the same, and the Connection but for the trace -/

theorem Conn.send_retrace (sync : BitVec 32) (isEnd : Bool) (payload : Bytes) (tags : List Tag) (c : Conn) :
    ∃ tags', (c.retrace tags).send sync isEnd payload =
      ((c.send sync isEnd payload).1, (c.send sync isEnd payload).2.retrace tags') := by
  unfold Conn.send
  simp only [trace_unread.connState, trace_unread.endAcked]
  split_ifs <;> exact ⟨_, rfl⟩

theorem Conn.receive_retrace (tags : List Tag) (c : Conn) :
    (c.retrace tags).receive = (c.receive.1, c.receive.2.retrace tags) := by
  cases hf : c.fatalPending with
  | some k => simp [Conn.receive, Conn.retrace, hf]
  | none =>
    cases hq : c.deliveryQueue with
    | cons item rest => simp [Conn.receive, Conn.retrace, hf, hq]
    | nil =>
      by_cases hc : c.connState = .closed
      · simp [Conn.receive, Conn.retrace, hf, hq, hc]
      · by_cases hp : c.peerEndReceived = true <;> simp [Conn.receive, Conn.retrace, hf, hq, hc, hp]

theorem Conn.rx_retrace (cfg : Config) (chunk : Bytes) (tags : List Tag) (c : Conn) :
    ∃ tags', (c.retrace tags).rx cfg chunk = ((c.rx cfg chunk).1, (c.rx cfg chunk).2.retrace tags') := by
  have absorbed : ∃ tags', (c.retrace tags).absorb cfg chunk = (c.absorb cfg chunk).retrace tags' :=
    Blind.extract_retrace cfg _ tags { c with receiveBuffer := c.receiveBuffer ++ chunk }
  unfold Conn.rx
  simp only [trace_unread.connState, show (c.retrace tags).receiveBuffer = c.receiveBuffer from rfl]
  split_ifs
  · exact ⟨tags, rfl⟩
  · exact ⟨tags, rfl⟩
  · obtain ⟨tags', e⟩ := absorbed
    exact ⟨tags', congrArg (Prod.mk _) e⟩

/-- An operation leaves the Connection as if it had had another trace, but for the trace. -/
theorem Conn.after_retrace (cfg : Config) (i : Instr) : Blind Conn.retrace fun c => c.after cfg i := by
  cases i with
  | send payload => exact fun tags c => (c.send_retrace cfg.sync false payload tags).imp fun _ e => congrArg Prod.snd e
  | sendEnd payload => exact fun tags c => (c.send_retrace cfg.sync true payload tags).imp fun _ e => congrArg Prod.snd e
  | receive => exact fun tags c => ⟨tags, congrArg Prod.snd (c.receive_retrace tags)⟩
  | rxBytes chunk => exact fun tags c => (c.rx_retrace cfg chunk tags).imp fun _ e => congrArg Prod.snd e
  | chClose => exact trace_unread.whenOpen (trace_unread.close .channelClosed)
  | timerExpire => exact .timerExpire_retrace cfg
  | reset => exact fun _ _ => ⟨[], rfl⟩
  | fRst => exact trace_unread.whenOpen trace_unread.onRst
  | fAck id => exact trace_unread.whenOpen (trace_unread.onAck id)
  | fDataEnd id _ payload => exact trace_unread.whenOpen (trace_unread.onDataEnd cfg id payload)
  | fData id _ payload => exact trace_unread.whenOpen (trace_unread.onDataPlain cfg id payload)
  | txData id payload => exact trace_unread.emitEncoded cfg.sync id 0x00 payload
  | txDataEnd id payload => exact trace_unread.emitEncoded cfg.sync id flagEnd payload
  | txAck id => exact trace_unread.emitEncoded cfg.sync id flagAck []
  | txRst => exact trace_unread.emitEncoded cfg.sync 0x00 flagRst []
  | cksum | encodeFrame | decodeFrame | rdstat => exact .self
  | reserved0 | reservedB | reservedC | reservedD | reservedE => exact .self

/-- An operation answers the same whatever the trace. -/
theorem response_retrace {i : Instr} {s t u : State} {tags : List Tag} (h : exec i s = .next t)
    (h' : exec i (s.withConn (s.st.retrace tags)) = .next u) : u.response = t.response := by
  cases i with
  | send payload =>
    cases h; cases h'
    obtain ⟨_, e⟩ := s.st.send_retrace s.cfg.sync false payload tags
    exact congrArg (some ·.1) e
  | sendEnd payload =>
    cases h; cases h'
    obtain ⟨_, e⟩ := s.st.send_retrace s.cfg.sync true payload tags
    exact congrArg (some ·.1) e
  | receive =>
    cases h; cases h'
    exact congrArg (some ·.1) (s.st.receive_retrace tags)
  | rxBytes chunk =>
    cases h; cases h'
    obtain ⟨_, e⟩ := s.st.rx_retrace s.cfg chunk tags
    exact congrArg (some ·.1) e
  | _ => cases h; cases h'; rfl

/-- The Connection replaced, machines that agree on the rest are equal. -/
theorem State.withConn_eq_of_rest {u t : State} (hcfg : u.cfg = t.cfg) (hslots : u.slots = t.slots)
    (hresponse : u.response = t.response) (c : Conn) : u.withConn c = t.withConn c := by
  simp [State.withConn, hcfg, hslots, hresponse]

/-- Settles O57: what an operation answers and what it leaves, each for the state with another trace. -/
theorem noOperationReadsTheTrace : Obligations.NoOperationReadsTheTrace := by
  intro s t i tags h
  obtain ⟨u, hu, hcfg, hslots⟩ := exec_answers_keeping_cfg_slots i (s.withConn (s.st.retrace tags))
  obtain ⟨t', ht', htcfg, htslots⟩ := exec_answers_keeping_cfg_slots i s
  obtain rfl : t' = t := Host.Outcome.next.inj (ht'.symm.trans h)
  obtain ⟨tags', hafter⟩ := Conn.after_retrace s.cfg i tags s.st
  have hst : u.st = t'.st.retrace tags' := by
    rw [st_of_exec hu, st_of_exec h]
    exact hafter
  refine ⟨u, hu, ?_⟩
  calc u.withConn (u.st.retrace t'.st.trace)
      = t'.withConn (u.st.retrace t'.st.trace) :=
        State.withConn_eq_of_rest (hcfg.trans htcfg.symm) (hslots.trans htslots.symm) (response_retrace h hu) _
    _ = t'.withConn ((t'.st.retrace tags').retrace t'.st.trace) := by rw [hst]
    _ = t' := rfl

end Sys2Proof.Machine
end

section
/-! What the handling of one frame and the extraction loop do to the bytes buffered (R121, R124, R169), and that the loop ends
with no frame to take. -/

namespace Sys2Proof.Machine

/-- The Connection with other bytes buffered. -/
def Conn.rebuffer (b : Bytes) (c : Conn) : Conn := { c with receiveBuffer := b }

theorem receiveBuffer_unread : Unread Conn.rebuffer := by
  constructor
  case emit | record | close | retire | accept | markPeerEnd => intros; intro b c; exact ⟨_, rfl⟩
  all_goals exact fun _ _ => rfl

/-- From `c` to `d` the bytes buffered stay, or the connection closes and drops them (R169). -/
def Conn.KeepsBuffer (c d : Conn) : Prop :=
  d.receiveBuffer = c.receiveBuffer ∧ (d.connState = .closed → c.connState = .closed) ∨
    d.connState = .closed ∧ d.receiveBuffer = []

namespace Conn.KeepsBuffer
variable {c d : Conn}

theorem closed (k : Cause) : c.KeepsBuffer (d.close k) := .inr ⟨rfl, rfl⟩

theorem checkDone (h : c.KeepsBuffer d) : c.KeepsBuffer d.checkDone := by
  rcases d.checkDone_cases with ⟨-, -, -, e⟩ | ⟨-, e⟩ <;> rw [e]
  · exact closed .normal
  · exact h

theorem onAck (id : Byte) (c : Conn) : c.KeepsBuffer (c.onAck id) := by
  rcases c.onAck_cases id with ⟨f, -, -, e⟩ | ⟨-, e⟩ <;> rw [e]
  · exact checkDone (.inl ⟨rfl, by simp⟩)
  · exact .inl ⟨rfl, fun h => h⟩

theorem onData (cfg : Config) (id : Byte) (items : List Item) {c : Conn} {accepted : Conn → Conn}
    (ha : c.KeepsBuffer (accepted (c.accept cfg.sync id items))) : c.KeepsBuffer (c.onData cfg id items accepted) := by
  rcases c.onData_cases cfg id items accepted with ⟨-, e⟩ | ⟨-, -, e⟩ | ⟨-, -, e⟩ <;> rw [e]
  · exact .inl ⟨rfl, fun h => h⟩
  · exact .inl ⟨rfl, fun h => h⟩
  · exact ha

/-- Handling a frame keeps the bytes behind it, or closes and drops them (R121, R169). -/
theorem dispatch (cfg : Config) (id flags : Byte) (payload : Bytes) (c : Conn) :
    c.KeepsBuffer (c.dispatch cfg id flags payload) := by
  unfold Conn.dispatch
  cases frameClass flags with
  | rst => exact closed .peerReset
  | ack => exact onAck id c
  | dataEnd => exact onData cfg id _ (checkDone (.inl ⟨rfl, fun h => h⟩))
  | data => exact onData cfg id _ (.inl ⟨rfl, fun h => h⟩)

theorem receiveBuffer_of_open (h : c.KeepsBuffer d) (hd : d.connState ≠ .closed) :
    d.receiveBuffer = c.receiveBuffer := by
  rcases h with ⟨h, -⟩ | ⟨h, -⟩
  · exact h
  · exact absurd h hd

theorem receiveBuffer_of_closing (h : c.KeepsBuffer d) (hc : c.connState ≠ .closed) (hd : d.connState = .closed) :
    d.receiveBuffer = [] := by
  rcases h with ⟨-, h⟩ | ⟨-, h⟩
  · exact absurd (h hd) hc
  · exact h

end Conn.KeepsBuffer

/-- A header's worth of bytes is there whenever `DECODE` answers anything but `Incomplete` (R103). -/
theorem headerLen_le_of_decodeFrame {sync : BitVec 32} {b : Bytes} (h : decodeFrame sync b ≠ .incomplete) :
    headerLen ≤ b.length := by
  by_contra hlt
  exact h (if_pos (by omega))

/-- While a closed Connection has no bytes, only an open one has a candidate to look at (R28 I2). -/
theorem Conn.open_of_candidate {sync : BitVec 32} {c : Conn} (hclosed : c.connState = .closed → c.receiveBuffer = [])
    (hd : decodeFrame sync c.receiveBuffer ≠ .incomplete) : c.connState ≠ .closed := by
  intro hc
  rw [hclosed hc] at hd
  exact hd rfl

/-- Bytes with no complete candidate are fewer than a largest frame (R104, R28 I7). -/
theorem length_of_incomplete {sync : BitVec 32} {b : Bytes} (h : decodeFrame sync b = .incomplete) :
    b.length ≤ maxFrame - 1 := by
  rcases decodeFrame_cases sync b with ⟨hl, -⟩ | ⟨-, -, e⟩ | ⟨-, hd, hl, -⟩ | ⟨-, -, -, e⟩ | ⟨-, -, -, -, -, e⟩ |
    ⟨-, -, -, -, -, e⟩
  case inl => simp only [maxFrame, headerLen, maxPayload] at *; omega
  case inr.inr.inl => simp only [maxFrame, headerLen, maxPayload] at *; omega
  all_goals simp [e] at h

/-- The loop with one iteration more than there are bytes ends in `Closed` or with no complete candidate (R120, R124). -/
theorem Conn.extract_settles (cfg : Config) (k : Nat) (c : Conn) (hk : c.receiveBuffer.length < k) :
    (c.extract cfg k).connState = .closed ∨ decodeFrame cfg.sync (c.extract cfg k).receiveBuffer = .incomplete := by
  induction k generalizing c with
  | zero => omega
  | succ k ih =>
    cases hd : decodeFrame cfg.sync c.receiveBuffer with
    | incomplete => rw [Conn.extract_incomplete k hd]; exact .inr hd
    | framingError kind =>
      have hlen : headerLen ≤ c.receiveBuffer.length := headerLen_le_of_decodeFrame (sync := cfg.sync) (by simp [hd])
      have hdrop := resync_length cfg.sync c.receiveBuffer
      rw [Conn.extract_error k hd]
      apply ih
      simp only [headerLen] at hlen
      dsimp only
      omega
    | frame id flags payload n =>
      obtain ⟨hn, hle, -, -⟩ := decodeFrame_consumed hd
      rw [Conn.extract_frame k hd]
      dsimp only
      split
      · exact .inl ‹_›
      · rename_i hopen
        apply ih
        rw [(KeepsBuffer.dispatch cfg id flags payload _).receiveBuffer_of_open hopen]
        simp only [headerLen] at hn
        simp only [List.length_drop]
        omega

end Sys2Proof.Machine
end

section
/-! The invariants of R28, kept by every operation. -/

namespace Sys2Proof.Machine
namespace Conn.Inv
variable {cfg : Config} {c : Conn}

/-! ### The state operations that keep the invariants by themselves -/

theorem emit (b : Bytes) (h : c.Inv cfg) : (c.emit b).Inv cfg := { h with }

theorem record (t : Tag) (h : c.Inv cfg) : (c.record t).Inv cfg := { h with }

theorem rebuffer {b : Bytes} (h : c.Inv cfg) (hclosed : c.connState = .closed → b = [])
    (hb : decodeFrame cfg.sync b = .incomplete) : (c.rebuffer b).Inv cfg :=
  { h with
    closed_form := fun hc => by
      obtain ⟨hout, htimer, hretry, -, hreq, hcause⟩ := h.closed_form hc
      exact ⟨hout, htimer, hretry, hclosed hc, hreq, hcause⟩
    buffer_bound := length_of_incomplete hb
    buffer_incomplete := hb }

/-- `CLOSE(cause)` of a Connection with no fatal condition pending makes the rest of it good (R169, R28 I2). -/
theorem close_of (cause : Cause) (fatal : c.fatalPending = none) (acked_was_sent : c.endAcked = true → c.endSent = true)
    (next_id : c.nextSendId = 0 ∨ c.nextSendId = 1)
    (end_queued : Item.endOfStream ∈ c.deliveryQueue → c.peerEndReceived = true)
    (payload_bound : ∀ b, Item.payload b ∈ c.deliveryQueue → b.length ≤ maxPayload)
    (queue_bound : capAllows cfg.deliveryCap c.deliveryQueue.length = true) : (c.close cause).Inv cfg where
  awaiting_iff_outstanding := by simp
  awaiting_iff_armed := by simp
  closed_form := by simp
  open_form := by simp
  acked_was_sent := acked_was_sent
  unacked_end := by simp
  acked_not_awaiting := by simp
  next_id := next_id
  outstanding_form := by simp
  retry_bound := Nat.zero_le _
  idle_retry := by simp
  buffer_bound := Nat.zero_le _
  buffer_incomplete := rfl
  both_ends := by simp
  end_queued := by
    by_cases h : cause.abort = none
    · simpa [h] using end_queued
    · simp [h]
  payload_bound := by
    by_cases h : cause.abort = none
    · simpa [h] using payload_bound
    · simp [h]
  queue_bound := by
    by_cases h : cause.abort = none
    · simpa [h] using queue_bound
    · simpa [h] using (capAllows_eq_true _ _).mpr fun _ _ => Nat.zero_le _
  fatal_of_cause := by
    intro k hk
    refine ⟨cause, rfl, ?_⟩
    by_cases h : cause.abort = none <;> simp_all
  aborted_queue := by
    intro k hk hne
    obtain rfl : cause = k := Option.some.inj hk
    simp [hne]

/-- A closure in an open state (R169). -/
theorem close (cause : Cause) (h : c.Inv cfg) (hc : c.connState ≠ .closed) : (c.close cause).Inv cfg :=
  close_of cause (h.open_form hc).2.1 h.acked_was_sent h.next_id h.end_queued h.payload_bound h.queue_bound

/-- `check_done` completes what makes a Connection good but for I8 (R144). -/
theorem checkDone_of (done : (c.close .normal).Inv cfg)
    (undone : ¬(c.endAcked = true ∧ c.peerEndReceived = true) → c.Inv cfg) (hc : c.connState ≠ .closed) :
    c.checkDone.Inv cfg := by
  rcases c.checkDone_cases with ⟨-, -, -, e⟩ | ⟨hnot, e⟩ <;> rw [e]
  · exact done
  · exact undone fun ⟨hacked, hend⟩ => hnot ⟨hacked, hend, hc⟩

/-! ### The send side -/

/-- Byte 13 of the frame sent has END exactly for `SEND.END` (R66, R132, R133). -/
theorem hasFlag_sendFrame (sync : BitVec 32) (isEnd : Bool) (payload : Bytes) (c : Conn) :
    hasFlag (byteAt (c.sendFrame sync isEnd payload) 13) flagEnd = isEnd := by
  cases isEnd <;> simp [Conn.sendFrame, dataFrame, dataEndFrame, buildFrame_layout, hasFlag, flagEnd]

/-- An accepted `SEND` from `Idle` (R130, R132). -/
theorem transmit {isEnd : Bool} {payload : Bytes} (h : c.Inv cfg) (hidle : c.connState = .idle)
    (hacked : c.endAcked = false) (hlen : payload.length ≤ maxPayload) :
    (c.transmit (c.sendFrame cfg.sync isEnd payload) isEnd).Inv cfg where
  awaiting_iff_outstanding := by simp
  awaiting_iff_armed := by simp
  closed_form := by simp
  open_form := fun _ => h.open_form (by simp [hidle])
  acked_was_sent := by simp [hacked]
  unacked_end := by
    intro hsent _
    refine .inl ⟨rfl, _, rfl, ?_⟩
    have unsent : c.endSent = false := by
      by_contra hs
      rcases h.unacked_end (by simpa using hs) hacked with ⟨ha, -⟩ | hcl
      · simp [hidle] at ha
      · simp [hidle] at hcl
    simpa [hasFlag_sendFrame, unsent] using hsent
  acked_not_awaiting := by simp [hacked]
  next_id := h.next_id
  outstanding_form := by
    intro f hf
    obtain rfl := Option.some.inj hf
    exact ⟨isEnd, payload, hlen, rfl, by simp +contextual⟩
  retry_bound := Nat.zero_le _
  idle_retry := by simp
  buffer_bound := h.buffer_bound
  buffer_incomplete := h.buffer_incomplete
  both_ends := by simp [hacked]
  end_queued := h.end_queued
  payload_bound := h.payload_bound
  queue_bound := h.queue_bound
  fatal_of_cause := h.fatal_of_cause
  aborted_queue := h.aborted_queue

theorem send (isEnd : Bool) (payload : Bytes) (h : c.Inv cfg) : (c.send cfg.sync isEnd payload).2.Inv cfg := by
  rcases c.send_cases cfg.sync isEnd payload with
    ⟨-, e⟩ | ⟨-, -, -, e⟩ | ⟨-, -, -, e⟩ | ⟨hidle, hacked, hlen, e⟩ <;> rw [e]
  case inr.inr.inr => exact h.transmit hidle hacked hlen
  all_goals exact h

/-- A matching ACK (R137): the outstanding frame's END flag says whether this side's END is acknowledged. -/
theorem onAck (id : Byte) (h : c.Inv cfg) : (c.onAck id).Inv cfg := by
  rcases c.onAck_cases id with ⟨f, hf, -, e⟩ | ⟨-, e⟩ <;> rw [e]
  case inr => exact h.record .staleAck
  have awaiting : c.connState = .awaitingAck := h.awaiting_iff_outstanding.mpr (by simp [hf])
  have hopen : c.connState ≠ .closed := by simp [awaiting]
  obtain ⟨hcause, hfatal, hreq⟩ := h.open_form hopen
  have acked_was_sent : c.endAcked = true ∨ hasFlag (byteAt f 13) flagEnd = true → c.endSent = true := by
    rintro (hacked | hflag)
    · exact h.acked_was_sent hacked
    · obtain ⟨isEnd, payload, -, rfl, hsent⟩ := h.outstanding_form f hf
      exact hsent (by simpa [hasFlag_sendFrame] using hflag)
  have next_id : c.nextSendId ^^^ 1 = 0 ∨ c.nextSendId ^^^ 1 = 1 := by
    rcases h.next_id with e | e <;> simp [e]
  refine checkDone_of ?done (fun undone => ?undone) (by simp)
  case done =>
    exact close_of .normal hfatal (by simpa using acked_was_sent) next_id h.end_queued h.payload_bound h.queue_bound
  case undone =>
    exact {
      awaiting_iff_outstanding := by simp
      awaiting_iff_armed := by simp
      closed_form := by simp
      open_form := fun _ => ⟨hcause, hfatal, hreq⟩
      acked_was_sent := by simpa using acked_was_sent
      unacked_end := by
        intro hsent hunacked
        simp only [Conn.retire_endAcked, Bool.or_eq_false_iff] at hunacked
        rcases h.unacked_end hsent hunacked.1 with ⟨-, g, hg, hflag⟩ | hcl
        · obtain rfl : f = g := Option.some.inj (hf.symm.trans hg)
          simp [hflag] at hunacked
        · exact absurd hcl hopen
      acked_not_awaiting := by simp
      next_id := next_id
      outstanding_form := by simp
      retry_bound := Nat.zero_le _
      idle_retry := by simp
      buffer_bound := h.buffer_bound
      buffer_incomplete := h.buffer_incomplete
      both_ends := fun hacked hend => absurd ⟨hacked, hend⟩ undone
      end_queued := h.end_queued
      payload_bound := h.payload_bound
      queue_bound := h.queue_bound
      fatal_of_cause := h.fatal_of_cause
      aborted_queue := h.aborted_queue }

/-- An expiry (R161 to R163): the ceiling bounds the count, and giving up closes an open connection. -/
theorem timerExpire (h : c.Inv cfg) : (c.timerExpire cfg).Inv cfg := by
  rcases c.timerExpire_cases cfg with ⟨-, e⟩ | ⟨harmed, -, e⟩ | ⟨harmed, hle, e⟩ <;> rw [e]
  case inl => exact h
  all_goals have awaiting : c.connState = .awaitingAck := h.awaiting_iff_armed.mpr harmed
  case inr.inl =>
    exact close_of .retriesExhausted (h.open_form (by simp [awaiting])).2.1 h.acked_was_sent h.next_id h.end_queued
      h.payload_bound h.queue_bound
  case inr.inr =>
    refine emit _ { h with closed_form := ?_, retry_bound := hle, idle_retry := ?_ }
    all_goals simp [awaiting]

/-! ### The receive side -/

/-- A data frame accepted (R139, R140), and the peer's END with it if `peerEnd` (R141). -/
theorem accept {id : Byte} {items : List Item} {peerEnd : Bool} (h : c.Inv cfg) (hc : c.connState ≠ .closed)
    (hroom : capAllows cfg.deliveryCap (c.deliveryQueue.length + items.length) = true)
    (hitems : ∀ b, Item.payload b ∈ items → b.length ≤ maxPayload)
    (hend : Item.endOfStream ∈ items ∨ c.peerEndReceived = true → peerEnd = true)
    (hboth : ¬(c.endAcked = true ∧ peerEnd = true)) :
    ({ c.accept cfg.sync id items with peerEndReceived := peerEnd } : Conn).Inv cfg :=
  { h with
    both_ends := fun hacked hpeer => absurd ⟨hacked, hpeer⟩ hboth
    end_queued := fun hmem => by
      rcases List.mem_append.mp hmem with hold | hnew
      · exact hend (.inr (h.end_queued hold))
      · exact hend (.inl hnew)
    payload_bound := fun b hmem => by
      rcases List.mem_append.mp hmem with hold | hnew
      · exact h.payload_bound b hold
      · exact hitems b hnew
    queue_bound := by simpa using hroom
    aborted_queue := fun cause hcause => by simp [(h.open_form hc).1] at hcause }

theorem onDataPlain (id : Byte) {payload : Bytes} (h : c.Inv cfg) (hc : c.connState ≠ .closed)
    (hlen : payload.length ≤ maxPayload) : (c.onDataPlain cfg id payload).Inv cfg := by
  unfold Conn.onDataPlain
  rcases c.onData_cases cfg id [.payload payload] fun a => a with ⟨-, e⟩ | ⟨-, -, e⟩ | ⟨-, hroom, e⟩ <;> rw [e]
  · exact (h.record .duplicateFrame).emit _
  · exact h.record .deliveryOverflow
  · exact h.accept hc hroom (by simpa using hlen) (by simp) fun ⟨hacked, hend⟩ => hc (h.both_ends hacked hend)

theorem eq_of_payload_mem_endItems {payload b : Bytes} (h : Item.payload b ∈ endItems payload) : b = payload := by
  unfold endItems at h
  split at h
  · simp at h
  · simpa using h

theorem onDataEnd (id : Byte) {payload : Bytes} (h : c.Inv cfg) (hc : c.connState ≠ .closed)
    (hlen : payload.length ≤ maxPayload) : (c.onDataEnd cfg id payload).Inv cfg := by
  unfold Conn.onDataEnd
  have hitems : ∀ b, Item.payload b ∈ endItems payload → b.length ≤ maxPayload :=
    fun b hb => eq_of_payload_mem_endItems hb ▸ hlen
  rcases c.onData_cases cfg id (endItems payload) fun a => { a with peerEndReceived := true }.checkDone with
    ⟨-, e⟩ | ⟨-, -, e⟩ | ⟨-, hroom, e⟩ <;> rw [e]
  · exact (h.record .duplicateFrame).emit _
  · exact h.record .deliveryOverflow
  · refine checkDone_of ?done (fun undone => h.accept hc hroom hitems (fun _ => rfl) undone) hc
    refine close_of .normal (h.open_form hc).2.1 h.acked_was_sent h.next_id (fun _ => rfl) ?_ (by simpa using hroom)
    intro b hmem
    rcases List.mem_append.mp hmem with hold | hnew
    · exact h.payload_bound b hold
    · exact hitems b hnew

theorem onRst (h : c.Inv cfg) (hc : c.connState ≠ .closed) : c.onRst.Inv cfg := (h.record .peerReset).close .peerReset hc

/-- Handling a frame in an open connection (R135). -/
theorem dispatch (id flags : Byte) {payload : Bytes} (h : c.Inv cfg) (hc : c.connState ≠ .closed)
    (hlen : payload.length ≤ maxPayload) : (c.dispatch cfg id flags payload).Inv cfg := by
  unfold Conn.dispatch
  cases frameClass flags with
  | rst => exact h.onRst hc
  | ack => exact h.onAck id
  | dataEnd => exact h.onDataEnd id hc hlen
  | data => exact h.onDataPlain id hc hlen

theorem receive (h : c.Inv cfg) : c.receive.2.Inv cfg := by
  rcases c.receive_cases with ⟨k, -, e⟩ | ⟨item, rest, -, hq, e⟩ | ⟨-, -, e, -⟩ <;> rw [e]
  · exact { h with
      open_form := fun hc => ⟨(h.open_form hc).1, rfl, (h.open_form hc).2.2⟩
      fatal_of_cause := by simp }
  · have taken : ∀ x ∈ rest, x ∈ c.deliveryQueue := fun x hx => by simp [hq, hx]
    exact { h with
      end_queued := fun hmem => h.end_queued (taken _ hmem)
      payload_bound := fun b hmem => h.payload_bound b (taken _ hmem)
      queue_bound := by
        have hcap := h.queue_bound
        rw [capAllows_eq_true] at hcap ⊢
        intro n hn
        have := hcap n hn
        simp only [hq, List.length_cons] at this
        dsimp only
        omega
      aborted_queue := fun cause hcause habort => by
        have := h.aborted_queue cause hcause habort
        simp [hq] at this }
  · exact h

end Conn.Inv

/-! ### Received bytes -/

/-- What the extraction loop keeps: the invariants but for I7, which the bytes not yet looked at break (R120). -/
def Conn.InvInLoop (cfg : Config) (c : Conn) : Prop :=
  (c.rebuffer []).Inv cfg ∧ (c.connState = .closed → c.receiveBuffer = [])

namespace Conn.InvInLoop
variable {cfg : Config} {c : Conn}

theorem of_open {b : Bytes} (h : c.Inv cfg) (hc : c.connState ≠ .closed) : InvInLoop cfg (c.rebuffer b) :=
  ⟨h.rebuffer (fun _ => rfl) rfl, fun hcl => absurd hcl hc⟩

theorem frame {id flags : Byte} {payload : Bytes} {n : Nat} (h : InvInLoop cfg c)
    (hd : decodeFrame cfg.sync c.receiveBuffer = .frame id flags payload n) :
    InvInLoop cfg ((c.rebuffer (c.receiveBuffer.drop n)).dispatch cfg id flags payload) := by
  obtain ⟨hinv, hclosed⟩ := h
  have hopen := Conn.open_of_candidate hclosed (sync := cfg.sync) (by simp [hd])
  obtain ⟨-, -, -, hlen⟩ := decodeFrame_consumed hd
  obtain ⟨b, hb⟩ := receiveBuffer_unread.dispatch cfg id flags payload [] (c.rebuffer (c.receiveBuffer.drop n))
  have handled : (((c.rebuffer (c.receiveBuffer.drop n)).dispatch cfg id flags payload).rebuffer b).Inv cfg := by
    rw [← hb]
    exact hinv.dispatch id flags hopen hlen
  exact ⟨handled.rebuffer (fun _ => rfl) rfl, (KeepsBuffer.dispatch ..).receiveBuffer_of_closing hopen⟩

theorem error (kind : FramingKind) (h : InvInLoop cfg c)
    (hd : decodeFrame cfg.sync c.receiveBuffer = .framingError kind) :
    InvInLoop cfg ((c.record kind.tag).rebuffer (resync cfg.sync c.receiveBuffer)) := by
  obtain ⟨hinv, hclosed⟩ := h
  have hopen := Conn.open_of_candidate hclosed (sync := cfg.sync) (by simp [hd])
  exact ⟨hinv.record kind.tag, fun hc => absurd hc hopen⟩

/-- At the loop's end the bytes left are no complete candidate, so I7 holds again. -/
theorem inv_of_settled (h : InvInLoop cfg c)
    (hsettled : c.connState = .closed ∨ decodeFrame cfg.sync c.receiveBuffer = .incomplete) : c.Inv cfg := by
  obtain ⟨hinv, hclosed⟩ := h
  refine hinv.rebuffer (b := c.receiveBuffer) hclosed ?_
  rcases hsettled with hc | hincomplete
  · rw [hclosed hc]
    rfl
  · exact hincomplete

end Conn.InvInLoop

namespace Conn.Inv
variable {cfg : Config} {c : Conn}

theorem rx (chunk : Bytes) (h : c.Inv cfg) : (c.rx cfg chunk).2.Inv cfg := by
  rcases c.rx_cases cfg chunk with ⟨-, e⟩ | ⟨-, -, e⟩ | ⟨hc, -, e⟩ <;> rw [e]
  case inr.inr =>
    have kept : InvInLoop cfg (c.absorb cfg chunk) :=
      Conn.extract_induction (P := InvInLoop cfg) (fun _ _ _ _ _ h hd => h.frame hd) (fun _ kind h hd => h.error kind hd)
        _ _ (.of_open h hc)
    exact kept.inv_of_settled (Conn.extract_settles cfg _ _ (by simp))
  all_goals exact h

theorem emitEncoded (id flags : Byte) (payload : Bytes) (h : c.Inv cfg) :
    (c.emitEncoded cfg.sync id flags payload).Inv cfg := by
  rcases c.emitEncoded_cases cfg.sync id flags payload with ⟨-, -, e⟩ | ⟨-, e⟩ <;> rw [e]
  · exact h.emit _
  · exact h

/-- Every well-formed operation keeps the invariants. -/
theorem after {i : Instr} (hwf : i.wf = true) (h : c.Inv cfg) : (c.after cfg i).Inv cfg := by
  cases i with
  | send payload => exact h.send false payload
  | sendEnd payload => exact h.send true payload
  | receive => exact h.receive
  | rxBytes chunk => exact h.rx chunk
  | chClose => exact Conn.whenOpen_of h (h.close .channelClosed)
  | timerExpire => exact h.timerExpire
  | reset => exact Conn.reset_inv cfg
  | fRst => exact Conn.whenOpen_of h h.onRst
  | fAck id => exact Conn.whenOpen_of h fun _ => h.onAck id
  | fDataEnd id flags payload =>
    obtain ⟨hlen, -⟩ : payload.length ≤ maxPayload ∧ frameClass flags = .dataEnd := by simpa [Instr.wf] using hwf
    exact Conn.whenOpen_of h fun hc => h.onDataEnd id hc hlen
  | fData id flags payload =>
    obtain ⟨hlen, -⟩ : payload.length ≤ maxPayload ∧ frameClass flags = .data := by simpa [Instr.wf] using hwf
    exact Conn.whenOpen_of h fun hc => h.onDataPlain id hc hlen
  | txData id payload => exact h.emitEncoded id 0x00 payload
  | txDataEnd id payload => exact h.emitEncoded id flagEnd payload
  | txAck id => exact h.emitEncoded id flagAck []
  | txRst => exact h.emitEncoded 0x00 flagRst []
  | cksum | encodeFrame | decodeFrame | rdstat => exact h
  | reserved0 | reservedB | reservedC | reservedD | reservedE => exact h

end Conn.Inv

/-- An event is well formed whatever its operands (R74). -/
theorem decodeEvent_wf (e : EventWord) : (decodeEvent e).wf = true := by
  unfold decodeEvent
  split <;> rfl

/-- A well-formed operation leaves a good state good. -/
theorem exec_inv {i : Instr} {s t : State} (hwf : i.wf = true) (hs : s.Inv) (h : exec i s = .next t) : t.Inv := by
  obtain ⟨hcfg, hconn⟩ := hs
  obtain ⟨t', ht', hkept, -⟩ := exec_answers_keeping_cfg_slots i s
  obtain rfl : t' = t := Host.Outcome.next.inj (ht'.symm.trans h)
  refine ⟨hkept ▸ hcfg, ?_⟩
  rw [hkept, st_of_exec h]
  exact hconn.after hwf

/-- Settles O51: a step waits, or runs a well-formed operation, and each of these keeps the invariants. -/
theorem everyStepKeepsTheInvariants : Obligations.EveryStepKeepsTheInvariants := by
  intro s t hs h
  cases hn : nextEvent s.slots with
  | none =>
    obtain rfl : s = t := Host.Outcome.next.inj ((step_of_no_event hn).symm.trans h)
    exact hs
  | some taken =>
    obtain ⟨e, rest⟩ := taken
    exact exec_inv (s := { s with slots := rest }) (decodeEvent_wf e) hs ((step_of_nextEvent hn).symm.trans h)

end Sys2Proof.Machine
end

section
/-! The writers of the fields (R12 to R16, R19, R24, R54, R164): what an operation other than an accepted `SEND` and a
retransmission may have written, with the tags it recorded. -/

namespace Sys2Proof.Machine

/-- The operation that sends a data frame, with END or without (R130, R133). -/
def sendOp (isEnd : Bool) (payload : Bytes) : Instr := if isEnd then .sendEnd payload else .send payload

/-- The operations that handle ACKs: an ACK frame, and received bytes, which may hold one (R135). -/
def handlesAck (i : Instr) : Prop := (∃ chunk, i = .rxBytes chunk) ∨ ∃ id flags p, i = .fAck id flags p

/-- The operations that handle data frames (R135). -/
def handlesData (i : Instr) : Prop :=
  (∃ chunk, i = .rxBytes chunk) ∨ ∃ id flags p, i = .fData id flags p ∨ i = .fDataEnd id flags p

/-- The operations that handle data frames with END (R135, R141). -/
def handlesDataEnd (i : Instr) : Prop := (∃ chunk, i = .rxBytes chunk) ∨ ∃ id flags p, i = .fDataEnd id flags p

/-- The operations that may close the connection (R169). -/
def mayClose (i : Instr) : Prop :=
  (∃ chunk, i = .rxBytes chunk) ∨ i = .chClose ∨ i = .timerExpire ∨
    ∃ id flags p, i = .fRst id flags p ∨ i = .fAck id flags p ∨ i = .fDataEnd id flags p

theorem handlesAck.mayClose {i : Instr} (h : handlesAck i) : mayClose i := by
  rcases h with h | ⟨id, flags, p, h⟩
  · exact .inl h
  · exact .inr (.inr (.inr ⟨id, flags, p, .inr (.inl h)⟩))

theorem handlesDataEnd.mayClose {i : Instr} (h : handlesDataEnd i) : mayClose i := by
  rcases h with h | ⟨id, flags, p, h⟩
  · exact .inl h
  · exact .inr (.inr (.inr ⟨id, flags, p, .inr (.inr h)⟩))

theorem handlesDataEnd.handlesData {i : Instr} (h : handlesDataEnd i) : handlesData i :=
  h.imp (fun h => h) fun ⟨id, flags, p, h⟩ => ⟨id, flags, p, .inr h⟩

/-- A matching ACK handled: its tag stands among those recorded (R137). -/
def Acked (i : Instr) (tags : List Tag) : Prop := .ackMatched ∈ tags ∧ handlesAck i

/-- A closure handled, as the Connection it leaves shows (R169). -/
def Conn.ClosedBy (i : Instr) (d : Conn) : Prop := d.connState = .closed ∧ d.closeCause ≠ none ∧ mayClose i

/-- From `c` to `d` the operation `i` recorded `tags`, and wrote each field only by what may write it. -/
structure Conn.WrittenBy (i : Instr) (tags : List Tag) (c d : Conn) : Prop where
  trace : d.trace = c.trace ++ tags
  endSent : d.endSent = c.endSent
  send_side : d.nextSendId = c.nextSendId ∧ d.endAcked = c.endAcked ∨ Acked i tags
  lastAcceptedId : d.lastAcceptedId = c.lastAcceptedId ∨ .accepted ∈ tags ∧ handlesData i
  peerEndReceived : d.peerEndReceived = c.peerEndReceived ∨ .accepted ∈ tags ∧ handlesDataEnd i
  outstanding : d.outstandingFrame = c.outstandingFrame ∧ d.timerArmed = c.timerArmed ∧ d.retryCount = c.retryCount ∨
    d.outstandingFrame = none ∧ d.timerArmed = false ∧ d.retryCount = 0 ∧ (Acked i tags ∨ d.ClosedBy i)

namespace Conn.WrittenBy
variable {i : Instr} {tags tags' : List Tag} {c d e : Conn}

theorem refl (i : Instr) (c : Conn) : c.WrittenBy i [] c :=
  ⟨(List.append_nil _).symm, rfl, .inl ⟨rfl, rfl⟩, .inl rfl, .inl rfl, .inl ⟨rfl, rfl, rfl⟩⟩

/-- One frame after another, as long as the first leaves the connection open. -/
theorem trans (h : c.WrittenBy i tags d) (hopen : d.connState ≠ .closed) (h' : d.WrittenBy i tags' e) :
    c.WrittenBy i (tags ++ tags') e where
  trace := by rw [h'.trace, h.trace, List.append_assoc]
  endSent := h'.endSent.trans h.endSent
  send_side := by
    rcases h'.send_side with ⟨hid, hacked⟩ | ⟨htag, hi⟩
    · rcases h.send_side with ⟨hid₀, hacked₀⟩ | ⟨htag, hi⟩
      · exact .inl ⟨hid.trans hid₀, hacked.trans hacked₀⟩
      · exact .inr ⟨List.mem_append_left _ htag, hi⟩
    · exact .inr ⟨List.mem_append_right _ htag, hi⟩
  lastAcceptedId := by
    rcases h'.lastAcceptedId with same | ⟨htag, hi⟩
    · exact h.lastAcceptedId.imp same.trans fun ⟨htag, hi⟩ => ⟨List.mem_append_left _ htag, hi⟩
    · exact .inr ⟨List.mem_append_right _ htag, hi⟩
  peerEndReceived := by
    rcases h'.peerEndReceived with same | ⟨htag, hi⟩
    · exact h.peerEndReceived.imp same.trans fun ⟨htag, hi⟩ => ⟨List.mem_append_left _ htag, hi⟩
    · exact .inr ⟨List.mem_append_right _ htag, hi⟩
  outstanding := by
    rcases h'.outstanding with ⟨hf, ht, hr⟩ | ⟨hf, ht, hr, ⟨htag, hi⟩ | hcl⟩
    · rcases h.outstanding with ⟨hf₀, ht₀, hr₀⟩ | ⟨hf₀, ht₀, hr₀, ⟨htag, hi⟩ | hcl⟩
      · exact .inl ⟨hf.trans hf₀, ht.trans ht₀, hr.trans hr₀⟩
      · exact .inr ⟨hf.trans hf₀, ht.trans ht₀, hr.trans hr₀, .inl ⟨List.mem_append_left _ htag, hi⟩⟩
      · exact absurd hcl.1 hopen
    · exact .inr ⟨hf, ht, hr, .inl ⟨List.mem_append_right _ htag, hi⟩⟩
    · exact .inr ⟨hf, ht, hr, .inr hcl⟩

/-! ### The state operations -/

theorem emit (b : Bytes) (h : c.WrittenBy i tags d) : c.WrittenBy i tags (d.emit b) := { h with }

theorem rebuffer (b : Bytes) (h : c.WrittenBy i tags d) : c.WrittenBy i tags (d.rebuffer b) := { h with }

/-- A tag recorded that allows no write. -/
theorem record (t : Tag) (i : Instr) (c : Conn) : c.WrittenBy i [t] (c.record t) :=
  { refl i c with
    trace := rfl
    send_side := .inl ⟨rfl, rfl⟩
    lastAcceptedId := .inl rfl
    peerEndReceived := .inl rfl
    outstanding := .inl ⟨rfl, rfl, rfl⟩ }

theorem close (k : Cause) (hi : mayClose i) (h : c.WrittenBy i tags d) : c.WrittenBy i tags (d.close k) :=
  { h with outstanding := .inr ⟨rfl, rfl, rfl, .inr ⟨rfl, by simp, hi⟩⟩ }

theorem checkDone (hi : mayClose i) (h : c.WrittenBy i tags d) : c.WrittenBy i tags d.checkDone := by
  rcases d.checkDone_cases with ⟨-, -, -, e⟩ | ⟨-, e⟩ <;> rw [e]
  · exact h.close .normal hi
  · exact h

theorem retire (wasEnd : Bool) (hi : handlesAck i) (c : Conn) : c.WrittenBy i [.ackMatched] (c.retire wasEnd) :=
  have acked : Acked i [.ackMatched] := ⟨List.mem_singleton_self _, hi⟩
  ⟨rfl, rfl, .inr acked, .inl rfl, .inl rfl, .inr ⟨rfl, rfl, rfl, .inl acked⟩⟩

theorem accept (sync : BitVec 32) (id : Byte) (items : List Item) (hi : handlesData i) (c : Conn) :
    c.WrittenBy i [.accepted] (c.accept sync id items) :=
  ⟨rfl, rfl, .inl ⟨rfl, rfl⟩, .inr ⟨List.mem_singleton_self _, hi⟩, .inl rfl, .inl ⟨rfl, rfl, rfl⟩⟩

theorem markPeerEnd (htag : .accepted ∈ tags) (hi : handlesDataEnd i) (h : c.WrittenBy i tags d) :
    c.WrittenBy i tags { d with peerEndReceived := true } :=
  { h with peerEndReceived := .inr ⟨htag, hi⟩ }

/-! ### The handling of a frame -/

theorem onRst (hi : mayClose i) (c : Conn) : c.WrittenBy i [.peerReset] c.onRst := (record .peerReset i c).close .peerReset hi

theorem onAck (id : Byte) (hi : handlesAck i) (c : Conn) : ∃ tags, c.WrittenBy i tags (c.onAck id) := by
  rcases c.onAck_cases id with ⟨f, -, -, e⟩ | ⟨-, e⟩ <;> rw [e]
  · exact ⟨_, (retire _ hi c).checkDone hi.mayClose⟩
  · exact ⟨_, record .staleAck i c⟩

theorem onData (cfg : Config) (id : Byte) (items : List Item) (hi : handlesData i) (c : Conn) {accepted : Conn → Conn}
    (ha : ∀ d, c.WrittenBy i [.accepted] d → c.WrittenBy i [.accepted] (accepted d)) :
    ∃ tags, c.WrittenBy i tags (c.onData cfg id items accepted) := by
  rcases c.onData_cases cfg id items accepted with ⟨-, e⟩ | ⟨-, -, e⟩ | ⟨-, -, e⟩ <;> rw [e]
  · exact ⟨_, (record .duplicateFrame i c).emit _⟩
  · exact ⟨_, record .deliveryOverflow i c⟩
  · exact ⟨_, ha _ (accept cfg.sync id items hi c)⟩

theorem onDataPlain (cfg : Config) (id : Byte) (payload : Bytes) (hi : handlesData i) (c : Conn) :
    ∃ tags, c.WrittenBy i tags (c.onDataPlain cfg id payload) := onData cfg id _ hi c fun _ h => h

theorem onDataEnd (cfg : Config) (id : Byte) (payload : Bytes) (hi : handlesDataEnd i) (c : Conn) :
    ∃ tags, c.WrittenBy i tags (c.onDataEnd cfg id payload) :=
  onData cfg id _ hi.handlesData c fun _ h => (h.markPeerEnd (List.mem_singleton_self _) hi).checkDone hi.mayClose

end Conn.WrittenBy

/-- What the extraction loop keeps of the writes since `c`; a closed Connection has no bytes left to take a frame from. -/
def WrittenInLoop (i : Instr) (c d : Conn) : Prop :=
  (∃ tags, c.WrittenBy i tags d) ∧ (d.connState = .closed → d.receiveBuffer = [])

namespace WrittenInLoop
variable {cfg : Config} {i : Instr} {c d : Conn}

theorem frame {id flags : Byte} {payload : Bytes} {n : Nat} (h : WrittenInLoop i c d)
    (hd : decodeFrame cfg.sync d.receiveBuffer = .frame id flags payload n)
    (handled : ∀ d : Conn, ∃ tags, d.WrittenBy i tags (d.dispatch cfg id flags payload)) :
    WrittenInLoop i c ((d.rebuffer (d.receiveBuffer.drop n)).dispatch cfg id flags payload) := by
  obtain ⟨⟨tags, w⟩, hclosed⟩ := h
  have hopen := Conn.open_of_candidate hclosed (sync := cfg.sync) (by simp [hd])
  obtain ⟨tags', w'⟩ := handled (d.rebuffer (d.receiveBuffer.drop n))
  exact ⟨⟨_, (w.rebuffer (d.receiveBuffer.drop n)).trans hopen w'⟩,
    (Conn.KeepsBuffer.dispatch ..).receiveBuffer_of_closing hopen⟩

theorem error (kind : FramingKind) (h : WrittenInLoop i c d)
    (hd : decodeFrame cfg.sync d.receiveBuffer = .framingError kind) :
    WrittenInLoop i c ((d.record kind.tag).rebuffer (resync cfg.sync d.receiveBuffer)) := by
  obtain ⟨⟨tags, w⟩, hclosed⟩ := h
  have hopen := Conn.open_of_candidate hclosed (sync := cfg.sync) (by simp [hd])
  exact ⟨⟨_, w.trans hopen ((Conn.WrittenBy.record kind.tag i d).rebuffer _)⟩, fun hc => absurd hc hopen⟩

end WrittenInLoop

namespace Conn.WrittenBy
variable {i : Instr} {c : Conn}

/-! ### The operations -/

/-- Received bytes write as the frames they hold, handled one after another until one closes the connection (R121). -/
theorem rx (cfg : Config) (chunk : Bytes) (c : Conn) :
    ∃ tags, c.WrittenBy (.rxBytes chunk) tags (c.rx cfg chunk).2 := by
  have received : ∃ chunk', Instr.rxBytes chunk = .rxBytes chunk' := ⟨chunk, rfl⟩
  have handled (id flags : Byte) (payload : Bytes) (d : Conn) :
      ∃ tags, d.WrittenBy (.rxBytes chunk) tags (d.dispatch cfg id flags payload) := by
    unfold Conn.dispatch
    cases frameClass flags with
    | rst => exact ⟨_, onRst (.inl received) d⟩
    | ack => exact onAck id (.inl received) d
    | dataEnd => exact onDataEnd cfg id payload (.inl received) d
    | data => exact onDataPlain cfg id payload (.inl received) d
  rcases c.rx_cases cfg chunk with ⟨-, e⟩ | ⟨-, -, e⟩ | ⟨hc, -, e⟩ <;> rw [e]
  case inr.inr =>
    refine (Conn.extract_induction (P := WrittenInLoop (.rxBytes chunk) c) ?frame ?error _ _
      ⟨⟨_, (refl _ c).rebuffer (c.receiveBuffer ++ chunk)⟩, fun h => absurd h hc⟩).1
    case frame => exact fun d id flags payload n h hd => h.frame hd (handled id flags payload)
    case error => exact fun d kind h hd => h.error kind hd
  all_goals exact ⟨_, refl _ c⟩

/-- An expiry either counts up and retransmits, or writes nothing, or closes (R161 to R163). -/
theorem timerExpire (cfg : Config) (c : Conn) :
    (∃ tags, c.WrittenBy .timerExpire tags (c.timerExpire cfg)) ∨
    (c.timerArmed = true ∧ ∃ b, c.timerExpire cfg = { c with retryCount := c.retryCount + 1 }.emit b) := by
  rcases c.timerExpire_cases cfg with ⟨-, e⟩ | ⟨-, -, e⟩ | ⟨harmed, -, e⟩ <;> rw [e]
  · exact .inl ⟨_, refl _ c⟩
  · refine .inl ⟨[.retriesExhausted], ?_⟩
    have closed := ((record .retriesExhausted .timerExpire c).emit (rstFrame cfg.sync)).close .retriesExhausted
      (.inr (.inr (.inl rfl)))
    exact { closed with }
  · exact .inr ⟨harmed, _, rfl⟩

theorem emitEncoded (sync : BitVec 32) (id flags : Byte) (payload : Bytes) (i : Instr) (c : Conn) :
    ∃ tags, c.WrittenBy i tags (c.emitEncoded sync id flags payload) := by
  rcases c.emitEncoded_cases sync id flags payload with ⟨-, -, e⟩ | ⟨-, e⟩ <;> rw [e]
  · exact ⟨_, (refl i c).emit _⟩
  · exact ⟨_, refl i c⟩

theorem receive (c : Conn) : c.WrittenBy .receive [] c.receive.2 := by
  rcases c.receive_cases with ⟨k, -, e⟩ | ⟨item, rest, -, -, e⟩ | ⟨-, -, e, -⟩ <;> rw [e]
  · exact { refl .receive c with }
  · exact { refl .receive c with }
  · exact refl .receive c

theorem whenOpen {f : Conn → Conn} (h : ∃ tags, c.WrittenBy i tags (f c)) :
    ∃ tags, c.WrittenBy i tags (c.whenOpen f) :=
  Conn.whenOpen_of (P := fun d => ∃ tags, c.WrittenBy i tags d) ⟨_, refl i c⟩ fun _ => h

/-- An operation other than `RESET` and the sends writes each field only by what may write it, or retransmits. -/
theorem after (cfg : Config) (c : Conn) {i : Instr} (hreset : i ≠ .reset)
    (hsend : ∀ isEnd payload, i ≠ sendOp isEnd payload) :
    (∃ tags, c.WrittenBy i tags (c.after cfg i)) ∨
    (i = .timerExpire ∧ c.timerArmed = true ∧ ∃ b, c.after cfg i = { c with retryCount := c.retryCount + 1 }.emit b) := by
  cases i with
  | reset => exact absurd rfl hreset
  | send payload => exact absurd rfl (hsend false payload)
  | sendEnd payload => exact absurd rfl (hsend true payload)
  | timerExpire => exact (timerExpire cfg c).imp_right fun hcount => ⟨rfl, hcount⟩
  | receive => exact .inl ⟨_, receive c⟩
  | rxBytes chunk => exact .inl (rx cfg chunk c)
  | chClose => exact .inl (whenOpen ⟨_, (refl _ c).close .channelClosed (.inr (.inl rfl))⟩)
  | fRst id flags payload =>
    exact .inl (whenOpen ⟨_, onRst (.inr (.inr (.inr ⟨id, flags, payload, .inl rfl⟩))) c⟩)
  | fAck id flags payload => exact .inl (whenOpen (onAck id (.inr ⟨id, flags, payload, rfl⟩) c))
  | fDataEnd id flags payload => exact .inl (whenOpen (onDataEnd cfg id payload (.inr ⟨id, flags, payload, rfl⟩) c))
  | fData id flags payload =>
    exact .inl (whenOpen (onDataPlain cfg id payload (.inr ⟨id, flags, payload, .inl rfl⟩) c))
  | txData id payload => exact .inl (emitEncoded cfg.sync id 0x00 payload _ c)
  | txDataEnd id payload => exact .inl (emitEncoded cfg.sync id flagEnd payload _ c)
  | txAck id => exact .inl (emitEncoded cfg.sync id flagAck [] _ c)
  | txRst => exact .inl (emitEncoded cfg.sync 0x00 flagRst [] _ c)
  | cksum | encodeFrame | decodeFrame | rdstat => exact .inl ⟨_, refl _ c⟩
  | reserved0 | reservedB | reservedC | reservedD | reservedE => exact .inl ⟨_, refl _ c⟩

end Conn.WrittenBy

/-- `SEND` and `SEND.END` write nothing, or are accepted from `Idle` and transmit (R131, R132, R133). -/
theorem exec_sendOp_cases {isEnd : Bool} {payload : Bytes} {s t : State} (h : exec (sendOp isEnd payload) s = .next t) :
    t.st = s.st ∨
    s.st.connState = .idle ∧ t.response = some .accepted ∧
      t.st = s.st.transmit (s.st.sendFrame s.cfg.sync isEnd payload) isEnd := by
  have ht : t = (s.withConn (s.st.send s.cfg.sync isEnd payload).2).answer
      (some (s.st.send s.cfg.sync isEnd payload).1) := by
    cases isEnd <;> exact (Host.Outcome.next.inj h).symm
  rcases s.st.send_cases s.cfg.sync isEnd payload with
    ⟨-, e⟩ | ⟨-, -, -, e⟩ | ⟨-, -, -, e⟩ | ⟨hidle, -, -, e⟩ <;> rw [ht, e]
  case inr.inr.inr => exact .inr ⟨hidle, rfl, rfl⟩
  all_goals exact .inl rfl

/-- The three ways in which an operation other than `RESET` writes: by what may write each field, by an accepted send, by
counting up and retransmitting. -/
theorem exec_writes {i : Instr} {s t : State} (hi : i ≠ .reset) (h : exec i s = .next t) :
    (∃ tags, s.st.WrittenBy i tags t.st) ∨
    (∃ isEnd payload, i = sendOp isEnd payload ∧ s.st.connState = .idle ∧ t.response = some .accepted ∧
      t.st = s.st.transmit (s.st.sendFrame s.cfg.sync isEnd payload) isEnd) ∨
    (i = .timerExpire ∧ s.st.timerArmed = true ∧
      ∃ b, t.st = { s.st with retryCount := s.st.retryCount + 1 }.emit b) := by
  by_cases hsend : ∃ isEnd payload, i = sendOp isEnd payload
  · obtain ⟨isEnd, payload, rfl⟩ := hsend
    rcases exec_sendOp_cases h with e | accepted
    · rw [e]
      exact .inl ⟨_, .refl _ _⟩
    · exact .inr (.inl ⟨isEnd, payload, rfl, accepted⟩)
  · rw [st_of_exec h]
    exact (Conn.WrittenBy.after s.cfg s.st hi fun isEnd payload e => hsend ⟨isEnd, payload, e⟩).imp_right .inr

/-- Settles O56: the three ways an operation writes, each clause read off the fields written. -/
theorem fieldsHaveTheirWritersOnly : Obligations.FieldsHaveTheirWritersOnly := by
  intro s t i hi h
  rcases exec_writes hi h with ⟨tags, w⟩ | ⟨isEnd, payload, rfl, hidle, hresponse, e⟩ | ⟨rfl, harmed, b, e⟩
  case inl =>
    intro received recorded acked closed sent
    have hrecorded {tag : Tag} (htag : tag ∈ tags) : recorded tag := ⟨tags, w.trace, htag⟩
    have hacked : Acked i tags → acked := fun ⟨htag, hack⟩ => ⟨hrecorded htag, hack⟩
    refine ⟨?next_id, ?last_id, ?end_sent, ?end_acked, ?peer_end, ?frame, ?armed, ?count⟩ <;> intro hne
    case next_id => exact hacked (w.send_side.resolve_left fun same => hne same.1)
    case last_id => exact (w.lastAcceptedId.resolve_left hne).imp_left hrecorded
    case end_sent => exact absurd w.endSent hne
    case end_acked => exact hacked (w.send_side.resolve_left fun same => hne same.2)
    case peer_end => exact (w.peerEndReceived.resolve_left hne).imp_left hrecorded
    case frame =>
      obtain ⟨hf, -, -, how⟩ := w.outstanding.resolve_left fun same => hne same.1
      exact .inr ⟨hf, how.imp_left hacked⟩
    case armed =>
      obtain ⟨-, ht, -, how⟩ := w.outstanding.resolve_left fun same => hne same.2.1
      exact .inr ⟨ht, how.imp_left hacked⟩
    case count =>
      obtain ⟨-, -, hr, how⟩ := w.outstanding.resolve_left fun same => hne same.2.2
      exact .inr ⟨hr, .inr (how.imp_left hacked)⟩
  case inr.inl =>
    intro received recorded acked closed sent
    have accepted : sent (sendOp isEnd payload) := ⟨rfl, hidle, by rw [e]; rfl, hresponse⟩
    have either : ∃ p, sent (.send p) ∨ sent (.sendEnd p) := by
      cases isEnd
      · exact ⟨payload, .inl accepted⟩
      · exact ⟨payload, .inr accepted⟩
    refine ⟨?next_id, ?last_id, ?end_sent, ?end_acked, ?peer_end, ?frame, ?armed, ?count⟩ <;> intro hne
    case next_id | last_id | end_acked | peer_end => simp [e] at hne
    case end_sent =>
      cases isEnd
      · simp [e] at hne
      · exact ⟨payload, accepted⟩
    case frame =>
      refine .inl ⟨payload, ?_⟩
      cases isEnd
      · exact .inl ⟨accepted, by rw [e]; rfl⟩
      · exact .inr ⟨accepted, by rw [e]; rfl⟩
    case armed => exact .inl ⟨by rw [e]; rfl, either⟩
    case count => exact .inr ⟨by rw [e]; rfl, .inl either⟩
  case inr.inr => simp [e, harmed]

end Sys2Proof.Machine
end

section
/-! A step with one event presented, or none (R50, R74, R210). -/

namespace Sys2Proof.Machine

/-- Settles O47: an event presented alone is the next one, and with no slot left there is none. -/
theorem stepRunsTheDecodedEvent : Obligations.StepRunsTheDecodedEvent := by
  intro s
  constructor
  · intro e rest i hslots hdecode
    obtain rfl : decodeEvent e = i := Except.ok.inj hdecode
    have hnext : nextEvent s.slots = some (e, rest) := by rw [hslots, nextEvent_single]
    exact step_of_nextEvent hnext
  · intro hslots
    have hnext : nextEvent s.slots = none := by rw [hslots]; rfl
    exact step_of_no_event hnext

end Sys2Proof.Machine
end

section
/-! What is written to the channel: whole frames of the four emitted shapes (R47, R51, R69), each appended at once. -/

namespace Sys2Proof.Machine

/-- The bytes `b` are the frame of the well-formed operation `i`, one of the four emitted shapes (R69): no other operation
encodes to a frame on the TX stream. -/
def IsEmittedFrame (sync : BitVec 32) (i : Instr) (b : Bytes) : Prop :=
  i.wf = true ∧ encode sync i = .frameTx b

namespace IsEmittedFrame

theorem data (sync : BitVec 32) {id : Byte} {payload : Bytes} (hlen : payload.length ≤ maxPayload)
    (hid : id.toNat ≤ 1) : IsEmittedFrame sync (.txData id payload) (dataFrame sync id payload) :=
  ⟨by simp [Instr.wf, hlen, hid], rfl⟩

theorem dataEnd (sync : BitVec 32) {id : Byte} {payload : Bytes} (hlen : payload.length ≤ maxPayload)
    (hid : id.toNat ≤ 1) : IsEmittedFrame sync (.txDataEnd id payload) (dataEndFrame sync id payload) :=
  ⟨by simp [Instr.wf, hlen, hid], rfl⟩

theorem ack (sync : BitVec 32) (id : Byte) : IsEmittedFrame sync (.txAck id) (ackFrame sync id) := ⟨rfl, rfl⟩

theorem rst (sync : BitVec 32) : IsEmittedFrame sync .txRst (rstFrame sync) := ⟨rfl, rfl⟩

/-- The frame a send transmits is TX.DATA or TX.DATA_END, since `next_send_id` is 0 or 1 (R28 I5, R132, R133). -/
theorem sendFrame (sync : BitVec 32) (isEnd : Bool) {payload : Bytes} {c : Conn} (hlen : payload.length ≤ maxPayload)
    (hid : c.nextSendId = 0 ∨ c.nextSendId = 1) : ∃ i, IsEmittedFrame sync i (c.sendFrame sync isEnd payload) := by
  have hbit : c.nextSendId.toNat ≤ 1 := by rcases hid with e | e <;> simp [e]
  cases isEnd with
  | false => exact ⟨_, data sync hlen hbit⟩
  | true => exact ⟨_, dataEnd sync hlen hbit⟩

end IsEmittedFrame

/-- From `c` to `d` the TX stream grew by whole emitted frames and nothing else. -/
def Conn.EmitsFrames (sync : BitVec 32) (c d : Conn) : Prop :=
  ∃ frames : List (Instr × Bytes), (∀ f ∈ frames, IsEmittedFrame sync f.1 f.2) ∧
    d.txStream = c.txStream ++ (frames.map Prod.snd).flatten

theorem Conn.checkDone_txStream (c : Conn) : c.checkDone.txStream = c.txStream := by
  rcases c.checkDone_cases with ⟨-, -, -, e⟩ | ⟨-, e⟩ <;> rw [e]
  rfl

namespace Conn.EmitsFrames
variable {sync : BitVec 32} {cfg : Config} {c d e : Conn}

/-! ### Nothing written, one frame written, one writing after another -/

/-- Nothing is written. -/
theorem silent (h : d.txStream = c.txStream) : c.EmitsFrames sync d := ⟨[], by simp, by simp [h]⟩

/-- One frame is written. -/
theorem one {i : Instr} {b : Bytes} (hb : IsEmittedFrame sync i b) (h : d.txStream = c.txStream ++ b) :
    c.EmitsFrames sync d := ⟨[(i, b)], by simpa using hb, by simp [h]⟩

theorem trans (h : c.EmitsFrames sync d) (h' : d.EmitsFrames sync e) : c.EmitsFrames sync e := by
  obtain ⟨frames, hframes, hd⟩ := h
  obtain ⟨frames', hframes', he⟩ := h'
  refine ⟨frames ++ frames', fun f hf => ?_, by simp [he, hd]⟩
  exact (List.mem_append.mp hf).elim (hframes f) (hframes' f)

/-! ### The handling of a frame: only a data frame is answered, by its ACK -/

theorem onRst (c : Conn) : c.EmitsFrames sync c.onRst := silent rfl

theorem onAck (id : Byte) (c : Conn) : c.EmitsFrames sync (c.onAck id) := by
  rcases c.onAck_cases id with ⟨f, -, -, h⟩ | ⟨-, h⟩ <;> rw [h]
  · exact silent (Conn.checkDone_txStream _)
  · exact silent rfl

/-- A data frame is acknowledged, whether it is a duplicate or accepted, unless it does not fit (R139, R142, R143). -/
theorem onData (cfg : Config) (id : Byte) (items : List Item) (c : Conn) {accepted : Conn → Conn}
    (haccepted : ∀ d, (accepted d).txStream = d.txStream) :
    c.EmitsFrames cfg.sync (c.onData cfg id items accepted) := by
  rcases c.onData_cases cfg id items accepted with ⟨-, h⟩ | ⟨-, -, h⟩ | ⟨-, -, h⟩ <;> rw [h]
  · exact one (.ack cfg.sync id) rfl
  · exact silent rfl
  · exact one (.ack cfg.sync id) (haccepted _)

theorem onDataPlain (cfg : Config) (id : Byte) (payload : Bytes) (c : Conn) :
    c.EmitsFrames cfg.sync (c.onDataPlain cfg id payload) := onData cfg id _ c fun _ => rfl

theorem onDataEnd (cfg : Config) (id : Byte) (payload : Bytes) (c : Conn) :
    c.EmitsFrames cfg.sync (c.onDataEnd cfg id payload) := onData cfg id _ c fun _ => Conn.checkDone_txStream _

theorem dispatch (cfg : Config) (id flags : Byte) (payload : Bytes) (c : Conn) :
    c.EmitsFrames cfg.sync (c.dispatch cfg id flags payload) := by
  unfold Conn.dispatch
  cases frameClass flags with
  | rst => exact onRst c
  | ack => exact onAck id c
  | dataEnd => exact onDataEnd cfg id payload c
  | data => exact onDataPlain cfg id payload c

/-! ### The operations -/

/-- Received bytes emit what the frames found among them emit, one after another (R121). -/
theorem rx (cfg : Config) (chunk : Bytes) (c : Conn) : c.EmitsFrames cfg.sync (c.rx cfg chunk).2 := by
  rcases c.rx_cases cfg chunk with ⟨-, h⟩ | ⟨-, -, h⟩ | ⟨-, -, h⟩ <;> rw [h]
  case inr.inr =>
    refine Conn.extract_induction (P := c.EmitsFrames cfg.sync) ?frame ?error _ _ (silent rfl)
    case frame =>
      intro d id flags payload n hd _
      exact hd.trans (dispatch cfg id flags payload (d.rebuffer (d.receiveBuffer.drop n)))
    case error => exact fun d kind hd _ => hd.trans (silent rfl)
  all_goals exact silent rfl

/-- A send is refused and writes nothing, or transmits one frame (R131, R132). -/
theorem send (isEnd : Bool) (payload : Bytes) (h : c.Inv cfg) :
    c.EmitsFrames cfg.sync (c.send cfg.sync isEnd payload).2 := by
  rcases c.send_cases cfg.sync isEnd payload with ⟨-, e⟩ | ⟨-, -, -, e⟩ | ⟨-, -, -, e⟩ | ⟨-, -, hlen, e⟩ <;> rw [e]
  case inr.inr.inr =>
    obtain ⟨i, hframe⟩ := IsEmittedFrame.sendFrame cfg.sync isEnd hlen h.next_id
    exact one hframe rfl
  all_goals exact silent rfl

theorem receive (c : Conn) : c.EmitsFrames sync c.receive.2 := by
  rcases c.receive_cases with ⟨k, -, e⟩ | ⟨item, rest, -, -, e⟩ | ⟨-, -, e, -⟩ <;> rw [e] <;> exact silent rfl

/-- An expiry writes nothing, an RST, or the outstanding frame again: an armed timer has one, and it is a frame that was
sent (R28 I1, I5). -/
theorem timerExpire (h : c.Inv cfg) : c.EmitsFrames cfg.sync (c.timerExpire cfg) := by
  rcases c.timerExpire_cases cfg with ⟨-, e⟩ | ⟨-, -, e⟩ | ⟨harmed, -, e⟩ <;> rw [e]
  case inl => exact silent rfl
  case inr.inl => exact one (.rst cfg.sync) rfl
  case inr.inr =>
    have houtstanding := h.awaiting_iff_outstanding.mp (h.awaiting_iff_armed.mpr harmed)
    obtain ⟨f, hf⟩ := Option.ne_none_iff_exists'.mp houtstanding
    obtain ⟨isEnd, payload, hlen, rfl, -⟩ := h.outstanding_form f hf
    obtain ⟨i, hframe⟩ := IsEmittedFrame.sendFrame cfg.sync isEnd hlen h.next_id
    exact one hframe (by simp [hf])

/-- The emission of an encoded frame writes that frame or nothing (R46, R101, R167). -/
theorem emitEncoded {i : Instr} {id flags : Byte} {payload : Bytes}
    (hframe : IsEmittedFrame sync i (buildFrame sync id flags payload)) (c : Conn) :
    c.EmitsFrames sync (c.emitEncoded sync id flags payload) := by
  rcases c.emitEncoded_cases sync id flags payload with ⟨-, -, e⟩ | ⟨-, e⟩ <;> rw [e]
  · exact one hframe rfl
  · exact silent rfl

theorem whenOpen {f : Conn → Conn} (h : c.EmitsFrames sync (f c)) : c.EmitsFrames sync (c.whenOpen f) :=
  Conn.whenOpen_of (silent rfl) fun _ => h

/-- Every well-formed operation but `RESET` writes whole emitted frames only. -/
theorem after {i : Instr} (hwf : i.wf = true) (hi : i ≠ .reset) (h : c.Inv cfg) :
    c.EmitsFrames cfg.sync (c.after cfg i) := by
  cases i with
  | reset => exact absurd rfl hi
  | send payload => exact send false payload h
  | sendEnd payload => exact send true payload h
  | receive => exact receive c
  | rxBytes chunk => exact rx cfg chunk c
  | chClose => exact whenOpen (silent rfl)
  | timerExpire => exact timerExpire h
  | fRst => exact whenOpen (onRst c)
  | fAck id => exact whenOpen (onAck id c)
  | fDataEnd id _ payload => exact whenOpen (onDataEnd cfg id payload c)
  | fData id _ payload => exact whenOpen (onDataPlain cfg id payload c)
  | txData id payload => exact emitEncoded (i := .txData id payload) ⟨hwf, rfl⟩ c
  | txDataEnd id payload => exact emitEncoded (i := .txDataEnd id payload) ⟨hwf, rfl⟩ c
  | txAck id => exact emitEncoded (.ack cfg.sync id) c
  | txRst => exact emitEncoded (.rst cfg.sync) c
  | cksum | encodeFrame | decodeFrame | rdstat => exact silent rfl
  | reserved0 | reservedB | reservedC | reservedD | reservedE => exact silent rfl

end Conn.EmitsFrames

/-- Settles O52: the frames by which the TX stream of the Connection that the operation leaves has grown. -/
theorem onlyWholeFramesOfTheFourShapesAreEmitted : Obligations.OnlyWholeFramesOfTheFourShapesAreEmitted := by
  intro s t i hs hwf hi h
  obtain ⟨-, hconn⟩ := hs
  rw [st_of_exec h]
  exact Conn.EmitsFrames.after hwf hi hconn

end Sys2Proof.Machine
end

section
/-! Decoding what was encoded (R102, R108): a built frame is a frame to `DECODE`, with the fields it was built from, and the
words of the 24 rows. -/

namespace Sys2Proof.Machine

/-- `DECODE` answers the frame when every test of R103 to R106 is passed (R107). -/
theorem decodeFrame_eq_frame {sync : BitVec 32} {b : Bytes} (hbound : declaredLength b ≤ maxPayload)
    (hwhole : headerLen + declaredLength b ≤ b.length) (hsync1 : be32At b 0 = sync) (hsync2 : be32At b 4 = sync)
    (hck : ckverify (b.take (headerLen + declaredLength b)) 8 = true) :
    decodeFrame sync b = .frame (byteAt b 12) (byteAt b 13) ((b.drop headerLen).take (declaredLength b))
      (headerLen + declaredLength b) := by
  rw [decodeFrame, if_neg (by omega), if_neg (by omega), if_neg (by omega), if_neg (by simp [hsync1, hsync2]),
    if_neg (by simp [hck])]

/-- Bytes that follow a frame stand behind its payload. -/
theorem layout_append (sync : BitVec 32) (ck len : BitVec 16) (id flags : Byte) (payload t : Bytes) :
    layout sync ck len id flags payload ++ t = layout sync ck len id flags (payload ++ t) := by
  simp [layout]

/-- A frame whose checksum field holds the checksum of its bytes with a zero field passes `CKVERIFY` (R95). -/
theorem ckverify_layout (sync : BitVec 32) (len : BitVec 16) (id flags : Byte) (payload : Bytes) :
    ckverify (layout sync (cksum (layout sync 0 len id flags payload)) len id flags payload) 8 = true := by
  rw [ckverify, layout_zeroed, layout_checksum, beq_self_eq_true]

/-- `DECODE` of a built frame gives back its fields, whatever bytes follow (R108). -/
theorem decodeFrame_buildFrame_append (sync : BitVec 32) (id flags : Byte) {payload : Bytes}
    (hlen : payload.length ≤ maxPayload) (t : Bytes) :
    decodeFrame sync (buildFrame sync id flags payload ++ t) =
      .frame id flags payload (headerLen + payload.length) := by
  have hdeclared (ck : BitVec 16) :
      declaredLength (layout sync ck (BitVec.ofNat 16 payload.length) id flags (payload ++ t)) = payload.length := by
    rw [declaredLength, layout_declared, BitVec.toNat_ofNat, Nat.mod_eq_of_lt (by simp only [maxPayload] at hlen; omega)]
  have hfront (ck len : BitVec 16) :
      (layout sync ck len id flags (payload ++ t)).take (headerLen + payload.length) =
        layout sync ck len id flags payload := by
    rw [← layout_append]
    exact List.take_left' (layout_length ..)
  rw [buildFrame_layout, unsealed_layout, layout_append, decodeFrame_eq_frame]
  case hck => rw [hdeclared, hfront, ckverify_layout]
  all_goals simp [hdeclared, hlen]

theorem decodeFrame_buildFrame (sync : BitVec 32) (id flags : Byte) {payload : Bytes}
    (hlen : payload.length ≤ maxPayload) :
    decodeFrame sync (buildFrame sync id flags payload) = .frame id flags payload (headerLen + payload.length) := by
  simpa using decodeFrame_buildFrame_append sync id flags hlen []

/-! ### Frames on the RX stream: the class of the flags -/

/-- A built frame on the RX stream is the operation of its class (R68). -/
theorem decodeRx_buildFrame (sync : BitVec 32) (id flags : Byte) {payload : Bytes} (hlen : payload.length ≤ maxPayload) :
    decodeRx sync (buildFrame sync id flags payload) = .ok (classify id flags payload) := by
  rw [decodeRx, decodeFrame_buildFrame sync id flags hlen]

/-! ### Frames on the TX stream: the emitted shape -/

/-- A built frame on the TX stream is the operation of its emitted shape (R69). -/
theorem decodeTx_buildFrame (sync : BitVec 32) (id flags : Byte) {payload : Bytes} {i : Instr}
    (hlen : payload.length ≤ maxPayload) (hshape : emittedShape id flags payload = some i) :
    decodeTx sync (buildFrame sync id flags payload) = .ok i := by
  rw [decodeTx, decodeFrame_buildFrame sync id flags hlen]
  simp only [hshape]

theorem emittedShape_data {id : Byte} (payload : Bytes) (hid : id.toNat ≤ 1) :
    emittedShape id 0x00 payload = some (.txData id payload) := if_pos ⟨rfl, hid⟩

theorem emittedShape_dataEnd {id : Byte} (payload : Bytes) (hid : id.toNat ≤ 1) :
    emittedShape id flagEnd payload = some (.txDataEnd id payload) := by
  rw [emittedShape, if_neg (by simp [flagEnd]), if_pos ⟨rfl, hid⟩]

theorem emittedShape_ack (id : Byte) : emittedShape id flagAck [] = some (.txAck id) := rfl

theorem emittedShape_rst : emittedShape 0 flagRst [] = some .txRst := rfl

/-! ### All rows -/

/-- Settles O14: an event word names its row, and a frame is read back by `DECODE` and named by its class or shape. -/
theorem everyOperationDecodesFromItsWord : Obligations.EveryOperationDecodesFromItsWord := by
  intro sync i hwf
  cases i with
  | cksum | encodeFrame | decodeFrame | send | sendEnd | receive | rdstat | rxBytes | chClose | timerExpire | reset => rfl
  | reserved0 | reservedB | reservedC | reservedD | reservedE => rfl
  | fRst id flags payload | fAck id flags payload | fDataEnd id flags payload | fData id flags payload =>
    simp only [Instr.wf, Bool.and_eq_true, decide_eq_true_eq] at hwf
    obtain ⟨hlen, hclass⟩ := hwf
    rw [encode, decode, decodeRx_buildFrame sync id flags hlen, classify, hclass]
  | txData id payload =>
    simp only [Instr.wf, Bool.and_eq_true, decide_eq_true_eq] at hwf
    obtain ⟨hlen, hid⟩ := hwf
    rw [encode, decode]
    exact decodeTx_buildFrame sync id 0x00 hlen (emittedShape_data payload hid)
  | txDataEnd id payload =>
    simp only [Instr.wf, Bool.and_eq_true, decide_eq_true_eq] at hwf
    obtain ⟨hlen, hid⟩ := hwf
    rw [encode, decode]
    exact decodeTx_buildFrame sync id flagEnd hlen (emittedShape_dataEnd payload hid)
  | txAck id =>
    rw [encode, decode]
    exact decodeTx_buildFrame sync id flagAck (Nat.zero_le _) (emittedShape_ack id)
  | txRst =>
    rw [encode, decode]
    exact decodeTx_buildFrame sync 0 flagRst (Nat.zero_le _) emittedShape_rst

/-- A word that is the encoding of a well-formed operation decodes to it. -/
theorem decode_of_encode {sync : BitVec 32} {i : Instr} {w : InstrWord} (hw : encode sync i = w) (hwf : i.wf = true) :
    decode sync w = .ok i := hw ▸ everyOperationDecodesFromItsWord sync i hwf

/-- Settles O15: the encoder evaluated on the six frames. -/
theorem headerOnlyFramesAreTheConstants : Obligations.HeaderOnlyFramesAreTheConstants :=
  ⟨rfl, rfl, rfl, rfl, rfl, rfl⟩

/-- Settles O16: each of the words is the encoding of the operation it stands for. -/
theorem writtenOutWordsDecode : Obligations.WrittenOutWordsDecode := by
  unfold Obligations.WrittenOutWordsDecode
  and_intros <;> exact decode_of_encode rfl rfl

end Sys2Proof.Machine
end

section
/-! The flags byte and its classes (R66 to R71). -/

namespace Sys2Proof.Machine

/-- The masks of R68 test the three flag bits in the order RST, ACK, END (R71). -/
theorem mask_iff_flags : ∀ flags : Byte,
    (flags &&& 0x20 = 0x20 ↔ hasFlag flags flagRst = true) ∧
    (flags &&& 0xA0 = 0x80 ↔ hasFlag flags flagRst = false ∧ hasFlag flags flagAck = true) ∧
    (flags &&& 0xE0 = 0x40 ↔
      hasFlag flags flagRst = false ∧ hasFlag flags flagAck = false ∧ hasFlag flags flagEnd = true) ∧
    (flags &&& 0xE0 = 0x00 ↔
      hasFlag flags flagRst = false ∧ hasFlag flags flagAck = false ∧ hasFlag flags flagEnd = false) := by
  decide

/-- A flag bit is tested above the reserved bits 4 to 0 (R70). -/
theorem hasFlag_ignores_reserved (flags : Byte) {mask : Byte} (h : 0xE0 &&& mask = mask) :
    hasFlag (flags &&& 0xE0) mask = hasFlag flags mask := by
  rw [hasFlag, hasFlag, BitVec.and_assoc, h]

theorem frameClass_ignores_reserved (flags : Byte) : frameClass (flags &&& 0xE0) = frameClass flags := by
  simp only [frameClass, hasFlag_ignores_reserved flags (mask := flagRst) rfl,
    hasFlag_ignores_reserved flags (mask := flagAck) rfl, hasFlag_ignores_reserved flags (mask := flagEnd) rfl]

/-- The class of a flags byte, by the first flag set in the order RST, ACK, END (R71). -/
theorem frameClass_cases (flags : Byte) :
    (hasFlag flags flagRst = true ∧ frameClass flags = .rst) ∨
    (hasFlag flags flagRst = false ∧ hasFlag flags flagAck = true ∧ frameClass flags = .ack) ∨
    (hasFlag flags flagRst = false ∧ hasFlag flags flagAck = false ∧ hasFlag flags flagEnd = true ∧
      frameClass flags = .dataEnd) ∨
    (hasFlag flags flagRst = false ∧ hasFlag flags flagAck = false ∧ hasFlag flags flagEnd = false ∧
      frameClass flags = .data) := by
  unfold frameClass
  cases hasFlag flags flagRst with
  | true => simp
  | false =>
    cases hasFlag flags flagAck with
    | true => simp
    | false => cases hasFlag flags flagEnd <;> simp

/-- Settles O13: the masks test the flag bits that decide the class. -/
theorem frameClassesAreTheMasksOfTheTable : Obligations.FrameClassesAreTheMasksOfTheTable := by
  intro flags
  obtain ⟨hrst, hack, hend, hdata⟩ := mask_iff_flags flags
  rw [hrst, hack, hend, hdata, frameClass_ignores_reserved]
  rcases frameClass_cases flags with ⟨r, h⟩ | ⟨r, a, h⟩ | ⟨r, a, e, h⟩ | ⟨r, a, e, h⟩ <;> simp [*]

end Sys2Proof.Machine
end

section
/-! The frames of `ENCODE` and of the emissions (R69, R100). -/

namespace Sys2Proof.Machine

/-- `ENCODE` within the bound gives the built frame (R100). -/
theorem encodeFrame_of_le (sync : BitVec 32) (id flags : Byte) {payload : Bytes} (hlen : payload.length ≤ maxPayload) :
    encodeFrame sync id flags payload = some (buildFrame sync id flags payload) := if_neg (Nat.not_lt.mpr hlen)

theorem exec_encodeFrame_of_le (s : State) (id flags : Byte) {payload : Bytes} (hlen : payload.length ≤ maxPayload) :
    exec (.encodeFrame id flags payload) s =
      .next (s.answer (some (.encoded (buildFrame s.cfg.sync id flags payload)))) := by
  have h : encodeResponse s.cfg.sync id flags payload = .encoded (buildFrame s.cfg.sync id flags payload) := by
    rw [encodeResponse, encodeFrame_of_le s.cfg.sync id flags hlen]
  rw [← h]
  rfl

/-- Settles O6: the answer is the built frame, whose layout is R61's with the checksum of the unsealed frame. -/
theorem encodeLaysOutTheFrame : Obligations.EncodeLaysOutTheFrame := by
  intro s id flags p hlen header
  have hlayout : buildFrame s.cfg.sync id flags p = header (cksum (header 0 ++ p)) ++ p := by
    rw [buildFrame_layout, unsealed_layout]
    rfl
  rw [← hlayout]
  exact exec_encodeFrame_of_le s id flags hlen

/-- While the connection is open an emission within the bound appends its frame (R46, R100). -/
theorem Conn.emitEncoded_open (sync : BitVec 32) (id flags : Byte) {payload : Bytes} {c : Conn}
    (hopen : c.connState ≠ .closed) (hlen : payload.length ≤ maxPayload) :
    c.emitEncoded sync id flags payload = c.emit (buildFrame sync id flags payload) := by
  rw [Conn.emitEncoded, encodeFrame_of_le sync id flags hlen]
  exact Conn.whenOpen_open hopen

/-- Settles O30: each of the four is an emission of an encoded frame (R69). -/
theorem emissionsAppendTheirFrame : Obligations.EmissionsAppendTheirFrame := by
  intro s id p hopen hlen emits
  have hemit (i : Instr) (id flags : Byte) (payload : Bytes) (hp : payload.length ≤ maxPayload)
      (hexec : exec i s = .next (s.withConn (s.st.emitEncoded s.cfg.sync id flags payload))) :
      emits i (buildFrame s.cfg.sync id flags payload) := by
    rw [Conn.emitEncoded_open s.cfg.sync id flags hopen hp] at hexec
    exact hexec
  exact ⟨hemit _ id 0x00 p hlen rfl, hemit _ id flagEnd p hlen rfl, hemit _ id flagAck [] (Nat.zero_le _) rfl,
    hemit _ 0 flagRst [] (Nat.zero_le _) rfl⟩

end Sys2Proof.Machine
end

section
/-! The reserved event codes (R75), and the codes and tags of the responses (R76, R180). -/

namespace Sys2Proof.Machine

/-- The reserved codes as numbers (R75). -/
theorem mem_reserved_codes_iff : ∀ op : BitVec 4,
    op ∈ [0x0#4, 0xB#4, 0xC#4, 0xD#4, 0xE#4] ↔ op.toNat = 0 ∨ (11 ≤ op.toNat ∧ op.toNat ≤ 14) := by
  decide

/-- Settles O45: one case per event code, and the five reserved rows answer alike. -/
theorem reservedCodesAreRefused : Obligations.ReservedCodesAreRefused := by
  constructor
  · intro e
    rw [mem_reserved_codes_iff]
    unfold decodeEvent
    split
    all_goals
      simp only [List.mem_cons, List.not_mem_nil, reduceCtorEq, or_false, or_true, iff_true, iff_false, imp_false] at *
      omega
  · intro s i hi
    simp only [List.mem_cons, List.not_mem_nil, or_false] at hi
    rcases hi with rfl | rfl | rfl | rfl | rfl <;> rfl

/-- Settles O60: the tables of R76 and R180 read off, row by row. -/
theorem statusCodesAndResultTagsAreTheTables : Obligations.StatusCodesAndResultTagsAreTheTables := by
  refine ⟨rfl, ?reports, ?succeeds⟩
  case reports => decide
  case succeeds =>
    intro succeeds
    have row {r : Response} {tag : Option (BitVec 2)} (hcondition : r.condition = none) (htag : r.resultTag = tag) :
        succeeds r tag := ⟨hcondition, by rw [Response.status, hcondition], htag⟩
    exact ⟨row rfl rfl, row rfl rfl, row rfl rfl, fun _ => ⟨row rfl rfl, row rfl rfl⟩, fun _ => row rfl rfl,
      fun _ => row rfl rfl, fun _ _ _ _ => row rfl rfl⟩

end Sys2Proof.Machine
end

section
/-! The Checksum Engine (R90 to R97). A 16-bit value is pinned by being the fold of a sum, and `CKSUM`, its streaming form and
the statements about changed blocks are all read off the sum of the words. -/

namespace Sys2Proof.Machine

/-- `F` is the fold of the sum `S` (R92): 0 exactly for the sum 0, and else the member of `1 .. 0xFFFF` congruent to `S`. -/
structure IsFold (S F : Nat) : Prop where
  le : F ≤ 0xFFFF
  eq_zero_iff : F = 0 ↔ S = 0
  mod_eq : F % 0xFFFF = S % 0xFFFF

theorem IsFold.unique {S F F' : Nat} (h : IsFold S F) (h' : IsFold S F') : F = F' := by
  obtain ⟨hle, hzero, hmod⟩ := h
  obtain ⟨hle', hzero', hmod'⟩ := h'
  omega

/-- Folding the carries of a block's sum gives its fold (R92). -/
theorem isFold_foldCarry (b : Bytes) : IsFold (wordSum b) (foldCarry (b.length + 1) (wordSum b)) where
  le := foldCarry_wordSum_le b
  eq_zero_iff := foldCarry_eq_zero _ _
  mod_eq := foldCarry_mod _ _

/-! ### The answer of `CKSUM` -/

/-- `CKSUM` is the one's complement of the fold (R93). -/
theorem cksum_eq_of_isFold {b : Bytes} {F : Nat} (h : IsFold (wordSum b) F) : cksum b = BitVec.ofNat 16 (0xFFFF - F) := by
  apply BitVec.eq_of_toNat_eq
  rw [cksum_toNat, (isFold_foldCarry b).unique h, BitVec.toNat_ofNat]
  omega

/-- Word `k` of a block, as R91 forms it. -/
def wordAt (b : Bytes) (k : Nat) : Nat :=
  if 2 * k + 1 < b.length then (byteAt b (2 * k)).toNat * 256 + (byteAt b (2 * k + 1)).toNat
  else (byteAt b (2 * k)).toNat * 256

theorem wordAt_cons_cons_zero (x y : Byte) (b : Bytes) : wordAt (x :: y :: b) 0 = x.toNat * 256 + y.toNat := by
  simp [wordAt]

theorem wordAt_cons_cons_succ (x y : Byte) (b : Bytes) (k : Nat) : wordAt (x :: y :: b) (k + 1) = wordAt b k := by
  have hlen : 2 * (k + 1) + 1 < (x :: y :: b).length ↔ 2 * k + 1 < b.length := by
    simp only [List.length_cons]
    omega
  simp only [wordAt, hlen]
  rfl

/-- The recursive sum is the sum over R91's words. -/
theorem sum_wordAt (b : Bytes) : ((List.range ((b.length + 1) / 2)).map (wordAt b)).sum = wordSum b := by
  induction b using wordSum.induct with
  | case1 => rfl
  | case2 x => simp [wordAt, wordSum]
  | case3 x y rest ih =>
    have hcount : ((x :: y :: rest).length + 1) / 2 = (rest.length + 1) / 2 + 1 := by simp; omega
    have htail : wordAt (x :: y :: rest) ∘ Nat.succ = wordAt rest := funext (wordAt_cons_cons_succ x y rest)
    rw [hcount, List.range_succ_eq_map, List.map_cons, List.map_map, htail, List.sum_cons, ih, wordAt_cons_cons_zero, wordSum]

/-- Settles O1: the fold is the folded sum of the words. -/
theorem cksumAnswersTheComplementOfTheFoldedSum : Obligations.CksumAnswersTheComplementOfTheFoldedSum := by
  intro s b word S
  have hS : S = wordSum b := sum_wordAt b
  have hfold := isFold_foldCarry b
  refine ⟨_, hfold.le, hS ▸ hfold.eq_zero_iff, hS ▸ hfold.mod_eq, ?_⟩
  rw [← cksum_eq_of_isFold hfold]
  rfl

/-! ### The streaming form -/

/-- Adding a word with end-around carry takes the fold of a sum to the fold of the sum with the word (R94). -/
theorem IsFold.endAroundAdd {S acc w : Nat} (h : IsFold S acc) (hw : w ≤ 0xFFFF) : IsFold (S + w) (endAroundAdd acc w) := by
  obtain ⟨hle, hzero, hmod⟩ := h
  unfold Machine.endAroundAdd
  split <;> constructor <;> omega

/-- R94's invariant: the accumulator is the fold of the words so far. -/
theorem IsFold.streamAcc {S acc : Nat} (h : IsFold S acc) (b : Bytes) : IsFold (S + wordSum b) (streamAcc acc b) := by
  induction b using wordSum.induct generalizing S acc with
  | case1 => exact h
  | case2 x => exact h.endAroundAdd (w := x.toNat * 256) (by have := x.isLt; omega)
  | case3 x y rest ih =>
    rw [wordSum, ← Nat.add_assoc]
    exact ih (h.endAroundAdd (by have := x.isLt; have := y.isLt; omega))

/-- Settles O2: the accumulator ends as the fold of the sum, which is unique. -/
theorem streamingChecksumIsTheChecksum : Obligations.StreamingChecksumIsTheChecksum := by
  intro b
  have hstart : IsFold 0 0 := ⟨by omega, Iff.rfl, rfl⟩
  have hstream : IsFold (wordSum b) (streamAcc 0 b) := by simpa using hstart.streamAcc b
  rw [cksumStream, cksum, hstream.unique (isFold_foldCarry b)]

/-! ### Blocks with the same checksum -/

theorem cksum_congr {b c : Bytes} (h : wordSum b = wordSum c) : cksum b = cksum c := by
  have hc := isFold_foldCarry c
  have hb : IsFold (wordSum b) (foldCarry (c.length + 1) (wordSum c)) := h ▸ hc
  rw [cksum_eq_of_isFold hb, cksum_eq_of_isFold hc]

/-- Equal checksums come from sums congruent modulo `0xFFFF`. -/
theorem wordSum_mod_eq_of_cksum_eq {b c : Bytes} (h : cksum b = cksum c) : wordSum b % 0xFFFF = wordSum c % 0xFFFF := by
  have hb := isFold_foldCarry b
  have hc := isFold_foldCarry c
  have hfold : foldCarry (b.length + 1) (wordSum b) = foldCarry (c.length + 1) (wordSum c) := by
    have hcksum := congrArg BitVec.toNat h
    rw [cksum_toNat, cksum_toNat] at hcksum
    have := hb.le
    have := hc.le
    omega
  rw [← hb.mod_eq, hfold, hc.mod_eq]

/-- A zero byte behind the block pads its last word or is a word of its own; either way the sum stays (R91). -/
theorem wordSum_append_zero (b : Bytes) : wordSum (b ++ [0]) = wordSum b := by
  induction b using wordSum.induct with
  | case1 => rfl
  | case2 x => simp [wordSum]
  | case3 x y rest ih => simp only [List.cons_append, wordSum, ih]

/-- Settles O3: a trailing zero byte keeps the sum, and so does a second one. -/
theorem trailingZerosKeepTheChecksum : Obligations.TrailingZerosKeepTheChecksum := by
  intro b
  have htwo : wordSum (b ++ [0, 0]) = wordSum b := by
    rw [List.append_cons, wordSum_append_zero, wordSum_append_zero]
  exact ⟨cksum_congr (wordSum_append_zero b), cksum_congr htwo⟩

/-- The bytes of a word are a block whose sum is the word. -/
theorem wordSum_be16 (w : BitVec 16) : wordSum (be16 w) = w.toNat := by
  have hw := w.isLt
  simp [be16, wordSum, Nat.shiftRight_eq_div_pow]
  omega

theorem wordSum_be16_append (w : BitVec 16) (b : Bytes) : wordSum (be16 w ++ b) = w.toNat + wordSum b := by
  rw [wordSum_append _ _ (by simp), wordSum_be16]

/-- Whole words in front of a block add their values to its sum. -/
theorem wordSum_words_append (ws : List (BitVec 16)) (tail : Bytes) :
    wordSum (ws.flatMap be16 ++ tail) = (ws.map BitVec.toNat).sum + wordSum tail := by
  induction ws with
  | nil => simp
  | cons w ws ih =>
    rw [List.flatMap_cons, List.append_assoc, wordSum_be16_append, ih, List.map_cons, List.sum_cons, Nat.add_assoc]

/-- Settles O4: addition does not see the order of the words (R92). -/
theorem reorderingWordsKeepsTheChecksum : Obligations.ReorderingWordsKeepsTheChecksum := by
  intro ws ws' tail hperm
  apply cksum_congr
  rw [wordSum_words_append, wordSum_words_append, (hperm.map BitVec.toNat).sum_eq]

/-- Settles O5: the sums are congruent, and they share every term but the changed word. -/
theorem changedWordChangesTheChecksum : Obligations.ChangedWordChangesTheChecksum := by
  intro a tail w w' heven hcksum
  have hsum (v : BitVec 16) : wordSum (a ++ be16 v ++ tail) = wordSum a + (v.toNat + wordSum tail) := by
    rw [List.append_assoc, wordSum_append _ _ heven, wordSum_be16_append]
  have hmod := wordSum_mod_eq_of_cksum_eq hcksum
  rw [hsum, hsum] at hmod
  omega

end Sys2Proof.Machine
end

section
/-! Reading fields (R9): a field is read off the bytes it stands in, and from nothing else. -/

namespace Sys2Proof.Machine

theorem byteAt_append_left {b : Bytes} (t : Bytes) {off : Nat} (h : off < b.length) : byteAt (b ++ t) off = byteAt b off :=
  List.getD_append b t 0 off h

theorem byteAt_take {b : Bytes} {off n : Nat} (h : off < n) : byteAt (b.take n) off = byteAt b off := by
  simp [byteAt, List.getElem?_take_of_lt h]

theorem byteAt_drop (b : Bytes) (n off : Nat) : byteAt (b.drop n) off = byteAt b (n + off) := by
  simp [byteAt]

theorem byteAt_set_self {b : Bytes} {k : Nat} (x : Byte) (h : k < b.length) : byteAt (b.set k x) k = x := by
  simp [byteAt, h]

theorem byteAt_set_of_ne {b : Bytes} {k off : Nat} (x : Byte) (h : k ≠ off) : byteAt (b.set k x) off = byteAt b off := by
  simp [byteAt, h]

theorem be16At_congr {b c : Bytes} {off : Nat} (h : ∀ i, off ≤ i → i < off + 2 → byteAt b i = byteAt c i) :
    be16At b off = be16At c off := by
  rw [be16At, be16At, h off (by omega) (by omega), h (off + 1) (by omega) (by omega)]

theorem be32At_congr {b c : Bytes} {off : Nat} (h : ∀ i, off ≤ i → i < off + 4 → byteAt b i = byteAt c i) :
    be32At b off = be32At c off := by
  rw [be32At, be32At, be16At_congr fun i _ _ => h i (by omega) (by omega),
    be16At_congr fun i _ _ => h i (by omega) (by omega)]

theorem byteAt_eq_of_be16At_eq {b c : Bytes} {off i : Nat} (h : be16At b off = be16At c off) (hi : off ≤ i)
    (hi' : i < off + 2) : byteAt b i = byteAt c i := by
  have hbytes := congrArg be16 h
  simp only [be16At, be16_append, List.cons.injEq, and_true] at hbytes
  obtain ⟨hhigh, hlow⟩ := hbytes
  obtain rfl | rfl : i = off ∨ i = off + 1 := by omega
  · exact hhigh
  · exact hlow

theorem byteAt_eq_of_be32At_eq {b c : Bytes} {off i : Nat} (h : be32At b off = be32At c off) (hi : off ≤ i)
    (hi' : i < off + 4) : byteAt b i = byteAt c i := by
  have hhigh := congrArg (BitVec.extractLsb' 16 16) h
  have hlow := congrArg (BitVec.extractLsb' 0 16) h
  simp only [be32At, high_of_append 16] at hhigh
  simp only [be32At, low_of_append 16] at hlow
  by_cases hmid : i < off + 2
  · exact byteAt_eq_of_be16At_eq hhigh hi hmid
  · exact byteAt_eq_of_be16At_eq hlow (by omega) (by omega)

/-- A changed byte inside a field of four bytes changes the field. -/
theorem be32At_set_ne {b : Bytes} {k off : Nat} {x : Byte} (hk : k < b.length) (hx : x ≠ byteAt b k) (hoff : off ≤ k)
    (hoff' : k < off + 4) : be32At (b.set k x) off ≠ be32At b off := by
  intro h
  have hbyte := byteAt_eq_of_be32At_eq h hoff hoff'
  rw [byteAt_set_self x hk] at hbyte
  exact hx hbyte

theorem be16At_set_ne {b : Bytes} {k off : Nat} {x : Byte} (hk : k < b.length) (hx : x ≠ byteAt b k) (hoff : off ≤ k)
    (hoff' : k < off + 2) : be16At (b.set k x) off ≠ be16At b off := by
  intro h
  have hbyte := byteAt_eq_of_be16At_eq h hoff hoff'
  rw [byteAt_set_self x hk] at hbyte
  exact hx hbyte

/-- A changed byte outside a field leaves the field. -/
theorem be32At_set_of_outside {b : Bytes} {k off : Nat} (x : Byte) (h : k < off ∨ off + 4 ≤ k) :
    be32At (b.set k x) off = be32At b off :=
  be32At_congr fun _ _ _ => byteAt_set_of_ne x (by omega)

theorem be16At_set_of_outside {b : Bytes} {k off : Nat} (x : Byte) (h : k < off ∨ off + 2 ≤ k) :
    be16At (b.set k x) off = be16At b off :=
  be16At_congr fun _ _ _ => byteAt_set_of_ne x (by omega)

theorem drop_eq_byteAt_cons {b : Bytes} {off : Nat} (h : off < b.length) : b.drop off = byteAt b off :: b.drop (off + 1) := by
  rw [List.drop_eq_getElem_cons h, byteAt, List.getD_eq_getElem b 0 h]

/-- A field of two bytes stands in front of the bytes behind it. -/
theorem drop_eq_be16_append {b : Bytes} {off : Nat} (h : off + 2 ≤ b.length) :
    b.drop off = be16 (be16At b off) ++ b.drop (off + 2) := by
  rw [be16At, be16_append, drop_eq_byteAt_cons (by omega), drop_eq_byteAt_cons (by omega)]
  rfl

theorem drop_eq_be32_append {b : Bytes} {off : Nat} (h : off + 4 ≤ b.length) :
    b.drop off = be32 (be32At b off) ++ b.drop (off + 4) := by
  rw [be32At, be32_append, List.append_assoc, drop_eq_be16_append (by omega), drop_eq_be16_append (by omega)]

/-- Bytes of at least a header that open with the marker pair are laid out as a frame (R61). -/
theorem eq_layout {sync : BitVec 32} {b : Bytes} (hlen : headerLen ≤ b.length) (hsync1 : be32At b 0 = sync)
    (hsync2 : be32At b 4 = sync) :
    b = layout sync (be16At b 8) (be16At b 10) (byteAt b 12) (byteAt b 13) (b.drop headerLen) := by
  rw [headerLen] at hlen
  calc b = be32 (be32At b 0) ++ (be32 (be32At b 4) ++ (be16 (be16At b 8) ++ (be16 (be16At b 10) ++
          byteAt b 12 :: byteAt b 13 :: b.drop 14))) := by
        rw [← drop_eq_byteAt_cons (by omega), ← drop_eq_byteAt_cons (by omega), ← drop_eq_be16_append (by omega),
          ← drop_eq_be16_append (by omega), ← drop_eq_be32_append (by omega), ← drop_eq_be32_append (by omega), List.drop_zero]
    _ = _ := by
        rw [hsync1, hsync2]
        rfl

end Sys2Proof.Machine
end

section
/-! What `ENCODE` refuses and what `DECODE` answers, one equation per test (R101 to R107). -/

namespace Sys2Proof.Machine

/-- Settles O7: above the bound `ENCODE` has no bytes to answer with. -/
theorem encodeRefusesALongPayload : Obligations.EncodeRefusesALongPayload := by
  intro s id flags p hlen
  have hnone : encodeFrame s.cfg.sync id flags p = none := if_pos hlen
  have hrefused : encodeResponse s.cfg.sync id flags p = .refused .payloadTooLong := by rw [encodeResponse, hnone]
  rw [← hrefused]
  rfl

theorem exec_decodeFrame (b : Bytes) (s : State) :
    exec (.decodeFrame b) s = .next { s with response := some (.decoded (decodeFrame s.cfg.sync b)) } := rfl

section
variable {sync : BitVec 32} {b : Bytes}

theorem decodeFrame_of_lt_header (hlen : b.length < headerLen) : decodeFrame sync b = .incomplete := if_pos hlen

theorem decodeFrame_of_bound_lt (hlen : headerLen ≤ b.length) (hbound : maxPayload < declaredLength b) :
    decodeFrame sync b = .framingError .lengthOutOfRange := by
  rw [decodeFrame, if_neg (by omega), if_pos hbound]

theorem decodeFrame_of_lt_whole (hlen : headerLen ≤ b.length) (hbound : declaredLength b ≤ maxPayload)
    (hpart : b.length < headerLen + declaredLength b) : decodeFrame sync b = .incomplete := by
  rw [decodeFrame, if_neg (by omega), if_neg (by omega), if_pos hpart]

theorem decodeFrame_of_unsynced (hbound : declaredLength b ≤ maxPayload) (hwhole : headerLen + declaredLength b ≤ b.length)
    (hsync : be32At b 0 ≠ sync ∨ be32At b 4 ≠ sync) : decodeFrame sync b = .framingError .invalidSync := by
  rw [decodeFrame, if_neg (by omega), if_neg (by omega), if_neg (by omega), if_pos hsync]

/-- The block that the checksum of a candidate with `n` payload bytes is taken over: its field is zero (R64, R106). -/
def checkedBlock (b : Bytes) (n : Nat) : Bytes := b.take 8 ++ [0, 0] ++ (b.drop 10).take (4 + n)

theorem ckverify_candidate (b : Bytes) (n : Nat) :
    ckverify (b.take (headerLen + n)) 8 = true ↔ be16At b 8 = cksum (checkedBlock b n) := by
  have hstored : be16At (b.take (headerLen + n)) 8 = be16At b 8 :=
    be16At_congr fun i _ _ => byteAt_take (by simp only [headerLen]; omega)
  have hfront : (b.take (headerLen + n)).take 8 = b.take 8 := by
    rw [List.take_take, Nat.min_eq_left (by simp only [headerLen]; omega)]
  have hback : (b.take (headerLen + n)).drop (8 + 2) = (b.drop 10).take (4 + n) := by
    rw [List.drop_take]
    congr 1
    simp only [headerLen]
    omega
  rw [ckverify, hstored, hfront, hback, beq_iff_eq]
  exact eq_comm

/-- The last test, for a whole candidate behind the marker pair: the stored checksum against the recomputed one (R106, R107). -/
theorem decodeFrame_of_synced (hbound : declaredLength b ≤ maxPayload) (hwhole : headerLen + declaredLength b ≤ b.length)
    (hsync1 : be32At b 0 = sync) (hsync2 : be32At b 4 = sync) :
    decodeFrame sync b =
      if be16At b 8 = cksum (checkedBlock b (declaredLength b)) then
        .frame (byteAt b 12) (byteAt b 13) ((b.drop headerLen).take (declaredLength b)) (headerLen + declaredLength b)
      else .framingError .checksumMismatch := by
  split_ifs with hck
  · exact decodeFrame_eq_frame hbound hwhole hsync1 hsync2 ((ckverify_candidate b _).mpr hck)
  · rw [← ckverify_candidate, Bool.not_eq_true] at hck
    rw [decodeFrame, if_neg (by omega), if_neg (by omega), if_neg (by omega), if_neg (by simp [hsync1, hsync2]), if_pos hck]

end

/-- Settles O8: each clause is the equation of its test. -/
theorem decodeTestsInOrder : Obligations.DecodeTestsInOrder := by
  intro s b L answers synced sealed
  have answer {r : DecodeResult} (h : decodeFrame s.cfg.sync b = r) : answers r := h ▸ exec_decodeFrame b s
  refine ⟨fun hlen => answer ?short, fun hlen hbound => answer ?bound, fun hlen hbound hpart => answer ?part,
    fun hbound hwhole hsync => answer ?unsynced, fun hbound hwhole hsync hck => answer ?unsealed,
    fun hbound hwhole hsync hck => answer ?frame⟩
  case short => exact decodeFrame_of_lt_header hlen
  case bound => exact decodeFrame_of_bound_lt hlen hbound
  case part => exact decodeFrame_of_lt_whole hlen hbound hpart
  case unsynced => exact decodeFrame_of_unsynced hbound hwhole (not_and_or.mp hsync)
  case unsealed => exact (decodeFrame_of_synced hbound hwhole hsync.1 hsync.2).trans (if_neg hck)
  case frame => exact (decodeFrame_of_synced hbound hwhole hsync.1 hsync.2).trans (if_pos hck)

end Sys2Proof.Machine
end

section
/-! The laws of the codec (R108, R109): the round trip, accepted bytes are encodings, and nothing beyond the candidate counts. -/

namespace Sys2Proof.Machine

@[simp] theorem buildFrame_length (sync : BitVec 32) (id flags : Byte) (payload : Bytes) :
    (buildFrame sync id flags payload).length = headerLen + payload.length := by
  rw [buildFrame_layout, layout_length]

theorem declaredLength_buildFrame (sync : BitVec 32) (id flags : Byte) {payload : Bytes}
    (hlen : payload.length ≤ maxPayload) : declaredLength (buildFrame sync id flags payload) = payload.length := by
  rw [declaredLength, buildFrame_layout, layout_declared, BitVec.toNat_ofNat,
    Nat.mod_eq_of_lt (by simp only [maxPayload] at hlen; omega)]

theorem declaredLength_congr {b c : Bytes} (h : ∀ i, i < headerLen → byteAt b i = byteAt c i) :
    declaredLength b = declaredLength c := by
  rw [declaredLength, declaredLength, be16At_congr fun i _ _ => h i (by simp only [headerLen]; omega)]

theorem declaredLength_take {b : Bytes} {n : Nat} (h : headerLen ≤ n) : declaredLength (b.take n) = declaredLength b :=
  declaredLength_congr fun _ _ => byteAt_take (by omega)

/-- Fewer than all bytes of a frame are no whole candidate: the header is cut, or it declares more than is there (R108). -/
theorem decodeFrame_take_buildFrame (sync : BitVec 32) (id flags : Byte) {payload : Bytes}
    (hlen : payload.length ≤ maxPayload) {n : Nat} (hn : n < headerLen + payload.length) :
    decodeFrame sync ((buildFrame sync id flags payload).take n) = .incomplete := by
  have htake : ((buildFrame sync id flags payload).take n).length = n := by simp; omega
  by_cases hheader : n < headerLen
  · exact decodeFrame_of_lt_header (by omega)
  · have hdeclared : declaredLength ((buildFrame sync id flags payload).take n) = payload.length := by
      rw [declaredLength_take (by omega), declaredLength_buildFrame sync id flags hlen]
    exact decodeFrame_of_lt_whole (by omega) (by omega) (by omega)

/-- Settles O9: the frame is the built one, read back from all its bytes and incomplete from fewer. -/
theorem decodeGivesBackWhatEncodeWasGiven : Obligations.DecodeGivesBackWhatEncodeWasGiven := by
  intro s id flags p hlen
  refine ⟨buildFrame s.cfg.sync id flags p, exec_encodeFrame_of_le s id flags hlen, fun t => ?_, fun n hn => ?_⟩
  · rw [exec_decodeFrame, decodeFrame_buildFrame_append s.cfg.sync id flags hlen]
    rfl
  · rw [buildFrame_length] at hn
    rw [exec_decodeFrame, decodeFrame_take_buildFrame s.cfg.sync id flags hlen hn]

/-- The candidate of bytes that open with the marker pair. -/
theorem take_eq_layout {sync : BitVec 32} {b : Bytes} (hlen : headerLen ≤ b.length) (hsync1 : be32At b 0 = sync)
    (hsync2 : be32At b 4 = sync) (n : Nat) :
    b.take (headerLen + n) =
      layout sync (be16At b 8) (be16At b 10) (byteAt b 12) (byteAt b 13) ((b.drop headerLen).take n) := by
  rw [Nat.add_comm headerLen n]
  conv_lhs => rw [eq_layout hlen hsync1 hsync2]
  rfl

/-- The block of such a candidate: the candidate with a zero field (R96). -/
theorem checkedBlock_eq_layout {sync : BitVec 32} {b : Bytes} (hlen : headerLen ≤ b.length) (hsync1 : be32At b 0 = sync)
    (hsync2 : be32At b 4 = sync) (n : Nat) :
    checkedBlock b n = layout sync 0 (be16At b 10) (byteAt b 12) (byteAt b 13) ((b.drop headerLen).take n) := by
  rw [checkedBlock, Nat.add_comm 4 n]
  conv_lhs => rw [eq_layout hlen hsync1 hsync2]
  rfl

/-- A layout that declares its payload's length and stores the checksum of its block is the encoding (R64, R100). -/
theorem layout_eq_buildFrame {sync : BitVec 32} {ck len : BitVec 16} {id flags : Byte} {payload : Bytes}
    (hlen : len.toNat = payload.length) (hck : ck = cksum (layout sync 0 len id flags payload)) :
    layout sync ck len id flags payload = buildFrame sync id flags payload := by
  have hfield : BitVec.ofNat 16 payload.length = len := by rw [← hlen, BitVec.ofNat_toNat, BitVec.setWidth_eq]
  rw [buildFrame_layout, unsealed_layout, hfield, hck]

/-- Settles O10: accepted bytes are laid out as a frame with the checksum of its block. -/
theorem decodeAcceptsOnlyEncodings : Obligations.DecodeAcceptsOnlyEncodings := by
  intro sync b id flags p n h
  rcases decodeFrame_cases sync b with ⟨-, e⟩ | ⟨-, -, e⟩ | ⟨-, -, -, e⟩ | ⟨-, -, -, e⟩ | ⟨-, -, -, -, -, e⟩ |
    ⟨hbound, hwhole, hsync1, hsync2, hck, e⟩
  case inr.inr.inr.inr.inr =>
    rw [e, DecodeResult.frame.injEq] at h
    obtain ⟨rfl, rfl, hp, rfl⟩ := h
    have hlen : p.length = declaredLength b := by rw [← hp, List.length_take, List.length_drop]; omega
    have hheader : headerLen ≤ b.length := by omega
    rw [ckverify_candidate, checkedBlock_eq_layout hheader hsync1 hsync2, hp] at hck
    have hframe : b.take (headerLen + declaredLength b) = buildFrame sync (byteAt b 12) (byteAt b 13) p := by
      rw [take_eq_layout hheader hsync1 hsync2, hp, layout_eq_buildFrame hlen.symm hck]
    have hp_le : p.length ≤ maxPayload := hlen ▸ hbound
    exact ⟨hp_le, by rw [hlen]; rfl, by rw [hframe, encodeFrame_of_le sync _ _ hp_le]⟩
  all_goals simp [e] at h

/-- Bytes behind a whole candidate do not change the answer (R102). -/
theorem decodeFrame_append (sync : BitVec 32) {c : Bytes} (hwhole : headerLen + declaredLength c ≤ c.length) (t : Bytes) :
    decodeFrame sync (c ++ t) = decodeFrame sync c := by
  have hbyte (i : Nat) (hi : i < headerLen) : byteAt (c ++ t) i = byteAt c i := byteAt_append_left t (by omega)
  have hdeclared : declaredLength (c ++ t) = declaredLength c := declaredLength_congr hbyte
  rw [headerLen] at hbyte
  have hsync1 : be32At (c ++ t) 0 = be32At c 0 := be32At_congr fun i _ _ => hbyte i (by omega)
  have hsync2 : be32At (c ++ t) 4 = be32At c 4 := be32At_congr fun i _ _ => hbyte i (by omega)
  have hpayload : ((c ++ t).drop headerLen).take (declaredLength c) = (c.drop headerLen).take (declaredLength c) := by
    rw [List.drop_append_of_le_length (by omega), List.take_append_of_le_length (by rw [List.length_drop]; omega)]
  have hheader : ¬(c ++ t).length < headerLen ∧ ¬c.length < headerLen := by rw [List.length_append]; omega
  have hpart : ¬(c ++ t).length < headerLen + declaredLength c ∧ ¬c.length < headerLen + declaredLength c := by
    rw [List.length_append]; omega
  simp only [decodeFrame, hdeclared, hsync1, hsync2, hpayload, hheader, hpart, hbyte, List.take_append_of_le_length hwhole,
    Nat.reduceLT]

/-- Settles O11: the candidate alone gives the answer, whatever follows it. -/
theorem decodeLooksAtTheCandidateOnly : Obligations.DecodeLooksAtTheCandidateOnly := by
  intro sync b t hwhole
  have hcandidate : headerLen + declaredLength (b.take (headerLen + declaredLength b)) ≤
      (b.take (headerLen + declaredLength b)).length := by
    rw [declaredLength_take (Nat.le_add_right ..), List.length_take_of_le (i := headerLen + declaredLength b) hwhole]
  calc decodeFrame sync (b.take (headerLen + declaredLength b) ++ t)
      = decodeFrame sync (b.take (headerLen + declaredLength b)) := decodeFrame_append sync hcandidate t
    _ = decodeFrame sync (b.take (headerLen + declaredLength b) ++ b.drop (headerLen + declaredLength b)) :=
        (decodeFrame_append sync hcandidate _).symm
    _ = decodeFrame sync b := by rw [List.take_append_drop]

end Sys2Proof.Machine
end

section
/-! One damaged byte in an encoded frame (R97 (c), R111). Any other value in one byte, not just one inverted bit, changes the
field that the byte stands in and the sum of the block. -/

namespace Sys2Proof.Machine

/-! ### The sum of a block with one byte changed -/

/-- What a byte at an offset counts in the sum of a block: the high byte of its word, or the low one (R91). -/
def byteWeight (k : Nat) : Nat := if k % 2 = 0 then 256 else 1

theorem wordSum_set {b : Bytes} {k : Nat} (x : Byte) (hk : k < b.length) :
    wordSum (b.set k x) + (byteAt b k).toNat * byteWeight k = wordSum b + x.toNat * byteWeight k := by
  induction b using wordSum.induct generalizing k with
  | case1 => simp at hk
  | case2 y =>
    obtain rfl : k = 0 := by simpa using hk
    simp [wordSum, byteWeight]
    omega
  | case3 y z rest ih =>
    match k with
    | 0 => simp [wordSum, byteWeight]; omega
    | 1 => simp [wordSum, byteWeight]; omega
    | k + 2 =>
      have hweight : byteWeight (k + 2) = byteWeight k := by simp [byteWeight]
      have hrest := ih (k := k) (by simpa using hk)
      simp only [List.set_cons_succ, wordSum, byteAt_cons_succ, hweight]
      omega

/-- Another value in one byte moves the sum by less than `0xFFFF`, so the checksum changes (R97 (c)). -/
theorem cksum_set_ne {b : Bytes} {k : Nat} {x : Byte} (hk : k < b.length) (hx : x ≠ byteAt b k) :
    cksum (b.set k x) ≠ cksum b := by
  intro h
  have hmod := wordSum_mod_eq_of_cksum_eq h
  have hsum := wordSum_set x hk
  have hne : x.toNat ≠ (byteAt b k).toNat := fun e => hx (BitVec.eq_of_toNat_eq e)
  have hx_lt := x.isLt
  have hbyte_lt := (byteAt b k).isLt
  rw [byteWeight] at hsum
  split_ifs at hsum <;> omega

/-! ### The checked block with one byte changed -/

/-- The checksum field is not part of the block that is checked (R95). -/
theorem checkedBlock_set_of_field {b : Bytes} {k : Nat} (x : Byte) (n : Nat) (hk : 8 ≤ k) (hk' : k < 10) :
    checkedBlock (b.set k x) n = checkedBlock b n := by
  rw [checkedBlock, List.take_set_of_le hk, List.drop_set_of_lt hk', checkedBlock]

/-- A byte behind the checksum field stands in the block where it stands in the frame. -/
theorem checkedBlock_set {b : Bytes} {k : Nat} (x : Byte) (n : Nat) (hlen : headerLen ≤ b.length) (hk : 10 ≤ k) :
    checkedBlock (b.set k x) n = (checkedBlock b n).set k x := by
  have hfront : (b.take 8 ++ [0, 0]).length = 10 := by simp [headerLen] at *; omega
  rw [checkedBlock, List.take_set_of_le (by omega), List.drop_set, if_neg (by omega), List.take_set, checkedBlock,
    List.set_append_right _ _ (by omega), hfront]

theorem byteAt_checkedBlock {b : Bytes} {k n : Nat} (hlen : headerLen ≤ b.length) (hk : 10 ≤ k) (hk' : k < headerLen + n) :
    byteAt (checkedBlock b n) k = byteAt b k := by
  have hfront : (b.take 8 ++ [0, 0]).length = 10 := by simp [headerLen] at *; omega
  rw [checkedBlock, byteAt, List.getD_append_right _ _ _ _ (by omega), ← byteAt, hfront,
    byteAt_take (by simp only [headerLen] at hk'; omega), byteAt_drop, Nat.add_sub_cancel' hk]

theorem checkedBlock_length {b : Bytes} {n : Nat} (hlen : headerLen + n ≤ b.length) :
    (checkedBlock b n).length = headerLen + n := by
  simp [checkedBlock, headerLen] at *
  omega

/-! ### The fields of an encoded frame -/

section
variable (sync : BitVec 32) (id flags : Byte) (payload : Bytes)

@[simp] theorem buildFrame_sync1 : be32At (buildFrame sync id flags payload) 0 = sync := layout_sync1 ..

@[simp] theorem buildFrame_sync2 : be32At (buildFrame sync id flags payload) 4 = sync := layout_sync2 ..

@[simp] theorem buildFrame_id : byteAt (buildFrame sync id flags payload) 12 = id := rfl

@[simp] theorem buildFrame_flags : byteAt (buildFrame sync id flags payload) 13 = flags := rfl

@[simp] theorem buildFrame_payload : (buildFrame sync id flags payload).drop headerLen = payload := rfl

/-- An encoded frame stores the checksum of its block (R96). -/
theorem buildFrame_checksum :
    be16At (buildFrame sync id flags payload) 8 = cksum (checkedBlock (buildFrame sync id flags payload) payload.length) := by
  rw [checkedBlock_eq_layout (by simp) (buildFrame_sync1 ..) (buildFrame_sync2 ..), buildFrame_payload, List.take_length,
    buildFrame_layout, layout_checksum, layout_declared, layout_id, layout_flags, unsealed_layout]

end

/-! ### `DECODE` of an encoded frame with one byte changed -/

theorem declaredLength_set (b : Bytes) {k : Nat} (x : Byte) (hk : k < 10 ∨ 12 ≤ k) :
    declaredLength (b.set k x) = declaredLength b := by
  rw [declaredLength, declaredLength, be16At_set_of_outside x hk]

section
variable (sync : BitVec 32) (id flags : Byte) {payload : Bytes} {k : Nat} {x : Byte}

/-- A changed byte in a sync field (R105). -/
theorem decodeFrame_set_marker (hlen : payload.length ≤ maxPayload) (hk : k < 8)
    (hx : x ≠ byteAt (buildFrame sync id flags payload) k) :
    decodeFrame sync ((buildFrame sync id flags payload).set k x) = .framingError .invalidSync := by
  have hdeclared := declaredLength_set (buildFrame sync id flags payload) x (k := k) (by omega)
  rw [declaredLength_buildFrame sync id flags hlen] at hdeclared
  have hin : k < (buildFrame sync id flags payload).length := by simp only [buildFrame_length, headerLen]; omega
  apply decodeFrame_of_unsynced (by omega) (by simp [hdeclared])
  by_cases hfirst : k < 4
  · left
    simpa using be32At_set_ne hin hx (Nat.zero_le k) hfirst
  · right
    simpa using be32At_set_ne hin hx (Nat.le_of_not_lt hfirst) hk

/-- A changed byte in the checksum field leaves the block and changes what is stored; one behind the length field leaves what is
stored and changes the block (R97 (d)). -/
theorem buildFrame_set_checksum_ne (hk : k = 8 ∨ k = 9 ∨ (12 ≤ k ∧ k < headerLen + payload.length))
    (hx : x ≠ byteAt (buildFrame sync id flags payload) k) :
    be16At ((buildFrame sync id flags payload).set k x) 8 ≠
      cksum (checkedBlock ((buildFrame sync id flags payload).set k x) payload.length) := by
  have hheader : headerLen ≤ (buildFrame sync id flags payload).length := by simp
  rw [headerLen] at hk hheader
  by_cases hfield : k < 10
  · rw [checkedBlock_set_of_field x _ (by omega) hfield, ← buildFrame_checksum]
    exact be16At_set_ne (by omega) hx (by omega) hfield
  · rw [checkedBlock_set x _ hheader (by omega), be16At_set_of_outside x (by omega), buildFrame_checksum]
    refine (cksum_set_ne ?_ ?_).symm
    · rw [checkedBlock_length (buildFrame_length ..).ge, headerLen]
      omega
    · rwa [byteAt_checkedBlock hheader (by omega) (by rw [headerLen]; omega)]

/-- A changed byte in the checksum, id, flags or payload (R106). -/
theorem decodeFrame_set_checked (hlen : payload.length ≤ maxPayload)
    (hk : k = 8 ∨ k = 9 ∨ (12 ≤ k ∧ k < headerLen + payload.length))
    (hx : x ≠ byteAt (buildFrame sync id flags payload) k) :
    decodeFrame sync ((buildFrame sync id flags payload).set k x) = .framingError .checksumMismatch := by
  have hdeclared := declaredLength_set (buildFrame sync id flags payload) x (k := k) (by omega)
  rw [declaredLength_buildFrame sync id flags hlen] at hdeclared
  rw [decodeFrame_of_synced (by omega) (by simp [hdeclared]), hdeclared, if_neg (buildFrame_set_checksum_ne sync id flags hk hx)]
  · rw [be32At_set_of_outside x (by omega), buildFrame_sync1]
  · rw [be32At_set_of_outside x (by omega), buildFrame_sync2]

/-- A changed length that fits the frame: the stored checksum against that of the shorter block (R111). -/
theorem decodeFrame_set_length (hlen : payload.length ≤ maxPayload) (hk : k = 10 ∨ k = 11)
    (hfits : declaredLength ((buildFrame sync id flags payload).set k x) ≤ payload.length) :
    let f' := (buildFrame sync id flags payload).set k x
    decodeFrame sync f' =
      if be16At (buildFrame sync id flags payload) 8 = cksum (checkedBlock f' (declaredLength f')) then
        .frame id flags (payload.take (declaredLength f')) (headerLen + declaredLength f')
      else .framingError .checksumMismatch := by
  intro f'
  have hstored : be16At f' 8 = be16At (buildFrame sync id flags payload) 8 := be16At_set_of_outside x (by omega)
  have hid : byteAt f' 12 = id := (byteAt_set_of_ne x (by omega)).trans (buildFrame_id ..)
  have hflags : byteAt f' 13 = flags := (byteAt_set_of_ne x (by omega)).trans (buildFrame_flags ..)
  have hpayload : f'.drop headerLen = payload :=
    (List.drop_set_of_lt (by rw [headerLen]; omega)).trans (buildFrame_payload ..)
  rw [decodeFrame_of_synced (hfits.trans hlen) (by simp [hfits]), hstored, hid, hflags, hpayload]
  · exact (be32At_set_of_outside x (by omega)).trans (buildFrame_sync1 ..)
  · exact (be32At_set_of_outside x (by omega)).trans (buildFrame_sync2 ..)

end

/-- Inverting a bit gives another byte. -/
theorem invertedBit_ne (x : Byte) {j : Nat} (hj : j < 8) : x ^^^ (1#8 <<< j) ≠ x := by
  have hbit : ∀ j < 8, 1#8 <<< j ≠ 0#8 := by decide
  intro h
  exact hbit j hj ((BitVec.xor_right_inj x).mp (h.trans BitVec.xor_zero.symm))

/-- R111's example: the length 4 becomes 0, and the dropped words sum to `0xFFFB`, which the change of the length makes up. -/
theorem decodeFrame_truncated_example :
    let f := buildFrame Config.default.sync 0 0x00 [0xFF, 0xFB, 0x00, 0x00]
    decodeFrame Config.default.sync (f.set 11 (byteAt f 11 ^^^ (1#8 <<< 2))) = .frame 0 0x00 [] 14 := by
  decide

/-- Settles O12: the field of the inverted bit names the test that sees it. -/
theorem oneInvertedBitIsSeenUnlessItShortensTheFrame : Obligations.OneInvertedBitIsSeenUnlessItShortensTheFrame := by
  refine ⟨?_, decodeFrame_truncated_example⟩
  intro sync id flags p k j hlen hj f f' L'
  have hx : byteAt f k ^^^ (1#8 <<< j) ≠ byteAt f k := invertedBit_ne _ hj
  have hlength : f'.length = headerLen + p.length := by simp [f', f]
  refine ⟨fun hk => ?marker, fun hk => ?checked, fun _ hbound => ?outOfRange, fun _ hlonger hbound => ?longer,
    fun hk hshorter => ?shorter⟩
  case marker => exact decodeFrame_set_marker sync id flags hlen hk hx
  case checked => exact decodeFrame_set_checked sync id flags hlen hk hx
  case outOfRange => exact decodeFrame_of_bound_lt (by omega) hbound
  case longer => exact decodeFrame_of_lt_whole (by omega) hbound (by omega)
  case shorter => exact decodeFrame_set_length sync id flags hlen hk hshorter.le

end Sys2Proof.Machine
end

section
/-! The scan for the next possible start of a frame (R122, R123). -/

namespace Sys2Proof.Machine

/-- A frame could start at position `j` of `b`: the marker pair stands there, as far as there are bytes. -/
def CouldStart (sync : BitVec 32) (b : Bytes) (j : Nat) : Prop := (b.drop j).take 8 = (mark sync).take (b.length - j)

theorem couldStart_cons_succ (sync : BitVec 32) (x : Byte) (b : Bytes) (j : Nat) :
    CouldStart sync (x :: b) (j + 1) ↔ CouldStart sync b j := by
  simp [CouldStart]

/-- `marker_prefix_ok` of the model is the test at the front (R122). -/
theorem couldStart_zero (sync : BitVec 32) (b : Bytes) : CouldStart sync b 0 ↔ markerPrefixOk sync b = true := by
  simp [CouldStart, markerPrefixOk]

/-- At the end of the bytes nothing rules out a frame. -/
theorem couldStart_length (sync : BitVec 32) (b : Bytes) : CouldStart sync b b.length := by
  simp [CouldStart]

theorem couldStart_mark (sync : BitVec 32) (before rest : Bytes) :
    CouldStart sync (before ++ mark sync ++ rest) before.length := by
  rw [CouldStart, List.append_assoc, List.drop_left, List.take_left' (mark_length sync),
    List.take_of_length_le (by simp)]

/-- The scan stops at the first possible start of a frame, at the latest behind the last byte (R122). -/
theorem exists_scanToMarker_eq_drop (sync : BitVec 32) (b : Bytes) :
    ∃ k, k ≤ b.length ∧ scanToMarker sync b = b.drop k ∧ CouldStart sync b k ∧ ∀ j, j < k → ¬CouldStart sync b j := by
  induction b with
  | nil => exact ⟨0, le_rfl, rfl, couldStart_length sync [], fun j hj => absurd hj j.not_lt_zero⟩
  | cons x b ih =>
    by_cases hfront : markerPrefixOk sync (x :: b) = true
    · exact ⟨0, Nat.zero_le _, if_pos hfront, (couldStart_zero ..).mpr hfront, fun j hj => absurd hj j.not_lt_zero⟩
    · obtain ⟨k, hk, hscan, hstart, hfirst⟩ := ih
      refine ⟨k + 1, Nat.succ_le_succ hk, (if_neg hfront).trans hscan, (couldStart_cons_succ ..).mpr hstart, ?_⟩
      rintro (_ | j) hj
      · rwa [couldStart_zero]
      · rw [couldStart_cons_succ]
        exact hfirst j (Nat.lt_of_succ_lt_succ hj)

/-- `resync` leaves the bytes from the first possible start on, the first byte aside (R122). -/
theorem exists_resync_eq_drop {sync : BitVec 32} {b : Bytes} (hb : b ≠ []) :
    ∃ k, 1 ≤ k ∧ k ≤ b.length ∧ resync sync b = b.drop k ∧ CouldStart sync b k ∧
      ∀ j, 1 ≤ j → j < k → ¬CouldStart sync b j := by
  cases b with
  | nil => exact absurd rfl hb
  | cons x b =>
    obtain ⟨k, hk, hscan, hstart, hfirst⟩ := exists_scanToMarker_eq_drop sync b
    refine ⟨k + 1, Nat.le_add_left .., Nat.succ_le_succ hk, hscan, (couldStart_cons_succ ..).mpr hstart, ?_⟩
    rintro (_ | j) hj hjk
    · omega
    · rw [couldStart_cons_succ]
      exact hfirst j (Nat.lt_of_succ_lt_succ hjk)

/-- Settles O35: a possible start is where the marker pair stands, as far as there are bytes. -/
theorem resyncStopsAtTheNextPossibleFrame : Obligations.ResyncStopsAtTheNextPossibleFrame :=
  fun _ _ hb => exists_resync_eq_drop hb

/-- A possible start behind the first byte, none between, is where `resync` stops. -/
theorem resync_eq_drop {sync : BitVec 32} {b : Bytes} {k : Nat} (hk : 1 ≤ k) (hkb : k < b.length)
    (hstart : CouldStart sync b k) (hfirst : ∀ j, 1 ≤ j → j < k → ¬CouldStart sync b j) : resync sync b = b.drop k := by
  have hb : b ≠ [] := List.length_pos_iff.mp (by omega)
  obtain ⟨l, hl, -, hresync, hstart', hfirst'⟩ := exists_resync_eq_drop (sync := sync) hb
  have hle : ¬k < l := fun hlt => hfirst' k hk hlt hstart
  have hge : ¬l < k := fun hlt => hfirst l hl hlt hstart'
  rw [hresync, show l = k by omega]

/-- `resync` loses no full marker pair behind the first byte, nor what follows it (R123). -/
theorem resync_keeps_mark {sync : BitVec 32} {before : Bytes} (rest : Bytes) (hbefore : before ≠ []) :
    ∃ kept, resync sync (before ++ mark sync ++ rest) = kept ++ mark sync ++ rest := by
  obtain ⟨k, -, -, hresync, -, hfirst⟩ :=
    exists_resync_eq_drop (sync := sync) (b := before ++ mark sync ++ rest) (by simp [hbefore])
  have hk : k ≤ before.length := by
    by_contra hlt
    exact hfirst before.length (List.length_pos_iff.mpr hbefore) (by omega) (couldStart_mark sync before rest)
  refine ⟨before.drop k, ?_⟩
  rw [hresync, List.append_assoc, List.drop_append_of_le_length hk, List.append_assoc]

/-- A built frame opens with the marker pair (R63). -/
theorem buildFrame_eq_mark_append (sync : BitVec 32) (id flags : Byte) (payload : Bytes) :
    buildFrame sync id flags payload = mark sync ++ (buildFrame sync id flags payload).drop 8 := rfl

/-- Behind damaged bytes in which no frame could start, `resync` finds the frame (R123). -/
theorem resync_finds_frame {sync : BitVec 32} {b damaged : Bytes} {id flags : Byte} {payload rest : Bytes}
    (hb : b = damaged ++ buildFrame sync id flags payload ++ rest) (hdamaged : damaged ≠ [])
    (hfirst : ∀ j, 1 ≤ j → j < damaged.length → ¬CouldStart sync b j) :
    resync sync b = buildFrame sync id flags payload ++ rest := by
  have hstart : CouldStart sync b damaged.length := by
    rw [hb, buildFrame_eq_mark_append, ← List.append_assoc, List.append_assoc]
    exact couldStart_mark sync damaged _
  have hbehind : damaged.length < b.length := by simp [hb, headerLen]
  rw [resync_eq_drop (List.length_pos_iff.mpr hdamaged) hbehind hstart hfirst, hb, List.append_assoc, List.drop_left]

end Sys2Proof.Machine
end

section
/-! The extraction loop without its bound (R120, R124): every iteration that goes on shortens the buffer, so a bound above the
bytes buffered is never met, and `absorb` obeys one equation for each answer of `DECODE`. -/

namespace Sys2Proof.Machine

theorem resync_length_lt_of_error {sync : BitVec 32} {b : Bytes} {kind : FramingKind}
    (hd : decodeFrame sync b = .framingError kind) : (resync sync b).length < b.length := by
  have hheader : headerLen ≤ b.length := headerLen_le_of_decodeFrame (sync := sync) (by simp [hd])
  have hdrop := resync_length sync b
  rw [headerLen] at hheader
  omega

theorem drop_length_lt_of_frame {sync : BitVec 32} {b : Bytes} {id flags : Byte} {payload : Bytes} {n : Nat}
    (hd : decodeFrame sync b = .frame id flags payload n) : (b.drop n).length < b.length := by
  obtain ⟨hheader, hn, -, -⟩ := decodeFrame_consumed hd
  rw [headerLen] at hheader
  rw [List.length_drop]
  omega

section
variable {cfg : Config} {c : Conn}

/-- A frame handled with the connection left open, the bytes behind it are the buffer (R121). -/
theorem Conn.dispatch_rebuffer_receiveBuffer {id flags : Byte} {payload b : Bytes}
    (hopen : ((c.rebuffer b).dispatch cfg id flags payload).connState ≠ .closed) :
    ((c.rebuffer b).dispatch cfg id flags payload).receiveBuffer = b :=
  (KeepsBuffer.dispatch cfg id flags payload (c.rebuffer b)).receiveBuffer_of_open hopen

theorem Conn.whenOpen_congr {f g : Conn → Conn} (h : c.connState ≠ .closed → f c = g c) :
    c.whenOpen f = c.whenOpen g := by
  by_cases hc : c.connState = .closed
  · rw [whenOpen_closed hc, whenOpen_closed hc]
  · rw [whenOpen_open hc, whenOpen_open hc, h hc]

/-- One iteration on a whole frame: it is taken off the buffer and handled, and the loop goes on unless that closed the
connection (R121). -/
theorem Conn.extract_succ_of_frame {id flags : Byte} {payload : Bytes} {n : Nat} (k : Nat)
    (hd : decodeFrame cfg.sync c.receiveBuffer = .frame id flags payload n) :
    c.extract cfg (k + 1) =
      ((c.rebuffer (c.receiveBuffer.drop n)).dispatch cfg id flags payload).whenOpen (Conn.extract cfg k) :=
  extract_frame k hd

theorem Conn.dispatch_receiveBuffer_length_le (cfg : Config) (id flags : Byte) (payload : Bytes) (c : Conn) :
    (c.dispatch cfg id flags payload).receiveBuffer.length ≤ c.receiveBuffer.length := by
  rcases KeepsBuffer.dispatch cfg id flags payload c with ⟨e, -⟩ | ⟨-, e⟩
  · rw [e]
  · rw [e]
    exact Nat.zero_le _

/-- A larger bound on the iterations changes nothing once it exceeds the bytes buffered (R124). -/
theorem Conn.extract_eq_of_length_lt {j k : Nat} (hj : c.receiveBuffer.length < j) (hjk : j ≤ k) :
    c.extract cfg k = c.extract cfg j := by
  induction j generalizing c k with
  | zero => omega
  | succ j ih =>
    obtain ⟨k, rfl⟩ := Nat.exists_eq_add_of_le' (Nat.one_le_of_lt hjk)
    cases hd : decodeFrame cfg.sync c.receiveBuffer with
    | incomplete => rw [extract_incomplete k hd, extract_incomplete j hd]
    | framingError kind =>
      have hlt := resync_length_lt_of_error hd
      rw [extract_error k hd, extract_error j hd]
      exact ih (by dsimp only; omega) (by omega)
    | frame id flags payload n =>
      have hlt := drop_length_lt_of_frame hd
      rw [extract_succ_of_frame k hd, extract_succ_of_frame j hd]
      refine whenOpen_congr fun hopen => ih ?_ (by omega)
      rw [dispatch_rebuffer_receiveBuffer hopen]
      omega

/-- Settles O37: the bound is above the bytes buffered. -/
theorem extractionEndsWithinTheBuffer : Obligations.ExtractionEndsWithinTheBuffer :=
  fun _ _ _ hk => Conn.extract_eq_of_length_lt (Nat.lt_succ_self _) hk

/-! ### `absorb`, case by case -/

/-- A chunk is appended, and then the loop runs as for no bytes (R120). -/
theorem Conn.absorb_eq_rebuffer_absorb_nil (chunk : Bytes) :
    c.absorb cfg chunk = (c.rebuffer (c.receiveBuffer ++ chunk)).absorb cfg [] := by
  simp [absorb, rebuffer]

theorem Conn.absorb_nil_eq_extract {k : Nat} (hk : c.receiveBuffer.length < k) : c.absorb cfg [] = c.extract cfg k := by
  have hsame : { c with receiveBuffer := c.receiveBuffer ++ [] } = c := by rw [List.append_nil]
  rw [absorb, hsame]
  exact (extract_eq_of_length_lt (Nat.lt_succ_self _) hk).symm

theorem Conn.absorb_nil_incomplete (hd : decodeFrame cfg.sync c.receiveBuffer = .incomplete) : c.absorb cfg [] = c := by
  rw [absorb_nil_eq_extract (Nat.lt_succ_self _), extract_incomplete _ hd]

theorem Conn.absorb_nil_error {kind : FramingKind} (hd : decodeFrame cfg.sync c.receiveBuffer = .framingError kind) :
    c.absorb cfg [] = ((c.record kind.tag).rebuffer (resync cfg.sync c.receiveBuffer)).absorb cfg [] := by
  rw [absorb_nil_eq_extract (Nat.lt_succ_self _), extract_error _ hd]
  exact (absorb_nil_eq_extract (resync_length_lt_of_error hd)).symm

theorem Conn.absorb_nil_frame {id flags : Byte} {payload : Bytes} {n : Nat}
    (hd : decodeFrame cfg.sync c.receiveBuffer = .frame id flags payload n) :
    c.absorb cfg [] =
      ((c.rebuffer (c.receiveBuffer.drop n)).dispatch cfg id flags payload).whenOpen (Conn.absorb cfg []) := by
  rw [absorb_nil_eq_extract (Nat.lt_succ_self _), extract_succ_of_frame _ hd]
  refine whenOpen_congr fun hopen => (absorb_nil_eq_extract ?_).symm
  rw [dispatch_rebuffer_receiveBuffer hopen]
  exact drop_length_lt_of_frame hd

/-- With a whole frame at the front, it is handled with the bytes behind it buffered, and the loop goes on (R121). -/
theorem Conn.absorb_of_buildFrame_append {chunk : Bytes} {id flags : Byte} {payload rest : Bytes}
    (hlen : payload.length ≤ maxPayload)
    (hbytes : c.receiveBuffer ++ chunk = buildFrame cfg.sync id flags payload ++ rest) :
    c.absorb cfg chunk = ((c.rebuffer rest).dispatch cfg id flags payload).whenOpen (Conn.absorb cfg []) := by
  have hrest : (c.receiveBuffer ++ chunk).drop (headerLen + payload.length) = rest := by
    rw [hbytes]
    exact List.drop_left' (buildFrame_length ..)
  have hd : decodeFrame cfg.sync (c.receiveBuffer ++ chunk) = .frame id flags payload (headerLen + payload.length) := by
    rw [hbytes, decodeFrame_buildFrame_append cfg.sync id flags hlen]
  rw [absorb_eq_rebuffer_absorb_nil, absorb_nil_frame hd, ← hrest]
  rfl

/-- A whole frame and nothing else is handled, and the loop ends (R120, R121). -/
theorem Conn.absorb_buildFrame (id flags : Byte) {payload : Bytes} (hlen : payload.length ≤ maxPayload)
    (hbuf : c.receiveBuffer = []) :
    c.absorb cfg (buildFrame cfg.sync id flags payload) = c.dispatch cfg id flags payload := by
  have hempty : c.rebuffer [] = c := by rw [rebuffer, ← hbuf]
  have hleft : (c.dispatch cfg id flags payload).receiveBuffer = [] := by
    have hle := dispatch_receiveBuffer_length_le cfg id flags payload c
    rwa [hbuf, List.length_nil, Nat.le_zero, List.length_eq_zero_iff] at hle
  rw [absorb_of_buildFrame_append (rest := []) hlen (by rw [hbuf, List.nil_append, List.append_nil]), hempty]
  exact whenOpen_of (P := (· = c.dispatch cfg id flags payload)) rfl
    fun _ => absorb_nil_incomplete (by rw [hleft]; rfl)

end
end Sys2Proof.Machine
end

section
/-! `RX_BYTES` as an event: what it answers in `Closed`, for a chunk that fits and for one that does not, and what it leaves
(R120 to R128). -/

namespace Sys2Proof.Machine

/-! ### The Connection -/

section
variable {cfg : Config} {c : Conn} {chunk : Bytes}

theorem Conn.rx_closed (hc : c.connState = .closed) : c.rx cfg chunk = (.rxAccepted, c) := if_pos hc

theorem Conn.rx_of_unfit (hopen : c.connState ≠ .closed)
    (hfit : capAllows cfg.rxbufCap (c.receiveBuffer.length + chunk.length) = false) :
    c.rx cfg chunk = (.rxNotAccepted, c) := by
  rw [rx, if_neg hopen, if_pos hfit]

theorem Conn.rx_of_fits (hfit : capAllows cfg.rxbufCap (c.receiveBuffer.length + chunk.length) = true) :
    c.rx cfg chunk = (.rxAccepted, c.whenOpen (Conn.absorb cfg chunk)) := by
  rcases c.rx_cases cfg chunk with ⟨hc, e⟩ | ⟨-, hunfit, -⟩ | ⟨hopen, -, e⟩
  · rw [e, whenOpen_closed hc]
  · rw [hfit] at hunfit
    cases hunfit
  · rw [e, whenOpen_open hopen]

/-- An empty chunk leaves a Connection without a complete candidate as it is, whatever is answered (R128). -/
theorem Conn.rx_nil_of_incomplete (hd : decodeFrame cfg.sync c.receiveBuffer = .incomplete) : (c.rx cfg []).2 = c := by
  rcases c.rx_cases cfg [] with ⟨-, e⟩ | ⟨-, -, e⟩ | ⟨-, -, e⟩ <;> rw [e]
  exact absorb_nil_incomplete hd

/-- Whatever was buffered, what a chunk leaves is `Closed` or has no complete candidate (R125). -/
theorem Conn.absorb_settles (cfg : Config) (chunk : Bytes) (c : Conn) :
    (c.absorb cfg chunk).connState = .closed ∨ decodeFrame cfg.sync (c.absorb cfg chunk).receiveBuffer = .incomplete :=
  extract_settles cfg _ _ (by simp)

theorem capAllows_of_le {cap : Option Nat} {m n : Nat} (h : capAllows cap n = true) (hmn : m ≤ n) :
    capAllows cap m = true := by
  rw [capAllows_eq_true] at h ⊢
  exact fun k hk => hmn.trans (h k hk)

end

/-! ### The machine -/

/-- The answer to a chunk that the buffer has room for (R120, R126). -/
theorem exec_rxBytes_of_fits {s : State} {chunk : Bytes}
    (hfit : capAllows s.cfg.rxbufCap (s.st.receiveBuffer.length + chunk.length) = true) :
    exec (.rxBytes chunk) s =
      .next ((s.withConn (s.st.whenOpen (Conn.absorb s.cfg chunk))).answer (some .rxAccepted)) := by
  have hrx := Conn.rx_of_fits hfit
  rw [exec, execRxBytes, hrx]

/-- A received frame as an operation is the dispatch to its class (R68, R126, R135). -/
theorem exec_classify (id flags : Byte) (payload : Bytes) (s : State) :
    exec (classify id flags payload) s =
      .next (s.withConn (s.st.whenOpen (Conn.dispatch s.cfg id flags payload))) := by
  unfold classify Conn.dispatch
  cases frameClass flags <;> rfl

theorem Conn.emitEncoded_closed (sync : BitVec 32) (id flags : Byte) (payload : Bytes) {c : Conn}
    (hc : c.connState = .closed) : c.emitEncoded sync id flags payload = c := by
  rcases c.emitEncoded_cases sync id flags payload with ⟨hopen, -, -⟩ | ⟨-, e⟩
  · exact absurd hc hopen
  · exact e

/-- Settles O29: the frames are guarded by `whenOpen`, the emissions by `emitEncoded`. -/
theorem closedIgnoresFramesAndEmitsNothing : Obligations.ClosedIgnoresFramesAndEmitsNothing := by
  intro s id flags p i hc hi
  have hframe (f : Conn → Conn) : s.withConn (s.st.whenOpen f) = s := by
    rw [Conn.whenOpen_closed hc]
    rfl
  have hemit (id flags : Byte) (p : Bytes) : s.withConn (s.st.emitEncoded s.cfg.sync id flags p) = s := by
    rw [Conn.emitEncoded_closed s.cfg.sync id flags p hc]
    rfl
  simp only [List.mem_cons, List.not_mem_nil, or_false] at hi
  rcases hi with rfl | rfl | rfl | rfl | rfl | rfl | rfl | rfl
  · exact congrArg _ (hframe Conn.onRst)
  · exact congrArg _ (hframe (Conn.onAck id))
  · exact congrArg _ (hframe (Conn.onDataEnd s.cfg id p))
  · exact congrArg _ (hframe (Conn.onDataPlain s.cfg id p))
  all_goals exact congrArg _ (hemit _ _ _)

/-- Settles O31: in `Closed` the chunk is not looked at. -/
theorem closedIgnoresReceivedBytes : Obligations.ClosedIgnoresReceivedBytes := by
  intro s chunk hc
  rw [exec, execRxBytes, Conn.rx_closed hc]
  rfl

/-- Settles O32: what fits is the capacity test, which an unbounded buffer always passes. -/
theorem chunkThatDoesNotFitIsNotAccepted : Obligations.ChunkThatDoesNotFitIsNotAccepted := by
  intro s chunk hopen
  constructor
  · intro cap hcap hlt
    rw [exec, execRxBytes, Conn.rx_of_unfit hopen ((capAllows_eq_false ..).mpr ⟨cap, hcap, hlt⟩)]
    rfl
  · intro hcap
    exact ⟨_, exec_rxBytes_of_fits ((capAllows_eq_true ..).mpr fun cap h => by simp [hcap] at h), rfl⟩

/-- Settles O33: the answer is what `RX_BYTES` answers in the state at hand. -/
theorem emptyChunkChangesNothing : Obligations.EmptyChunkChangesNothing := by
  intro s hd
  refine ⟨(s.st.rx s.cfg []).1, ?_⟩
  rw [exec, execRxBytes, Conn.rx_nil_of_incomplete hd]
  rfl

/-- Settles O36: the loop ends settled, and bytes that hold no complete candidate are few. -/
theorem receivedBytesLeaveNoCompleteCandidate : Obligations.ReceivedBytesLeaveNoCompleteCandidate := by
  intro s chunk hopen hcap
  refine ⟨_, exec_rxBytes_of_fits ((capAllows_eq_true ..).mpr hcap), rfl, ?_⟩
  simp only [Conn.whenOpen_open hopen, State.answer_st, State.withConn_st]
  intro hleft
  have hd := (Conn.absorb_settles s.cfg chunk s.st).resolve_left hleft
  exact ⟨hd, length_of_incomplete hd⟩

/-! ### One candidate at the front of the buffer -/

section
variable {s : State} {chunk : Bytes} (hopen : s.st.connState ≠ .closed)
  (hfit : capAllows s.cfg.rxbufCap (s.st.receiveBuffer.length + chunk.length) = true)
include hopen hfit

/-- What the loop does after the bytes are appended is what `RX_BYTES` of no bytes does on the Connection it goes on with. -/
theorem exec_rxBytes_of_absorb {c : Conn}
    (habsorb : s.st.absorb s.cfg chunk = c.whenOpen (Conn.absorb s.cfg []))
    (hle : c.receiveBuffer.length ≤ s.st.receiveBuffer.length + chunk.length) :
    exec (.rxBytes chunk) s = exec (.rxBytes []) (s.withConn c) := by
  have hfit' : capAllows (s.withConn c).cfg.rxbufCap
      ((s.withConn c).st.receiveBuffer.length + ([] : Bytes).length) = true := capAllows_of_le hfit hle
  rw [exec_rxBytes_of_fits hfit, exec_rxBytes_of_fits hfit', Conn.whenOpen_open hopen, habsorb]
  rfl

theorem exec_rxBytes_incomplete (hd : decodeFrame s.cfg.sync (s.st.receiveBuffer ++ chunk) = .incomplete) :
    exec (.rxBytes chunk) s =
      .next ((s.withConn (s.st.rebuffer (s.st.receiveBuffer ++ chunk))).answer (some .rxAccepted)) := by
  rw [exec_rxBytes_of_fits hfit, Conn.whenOpen_open hopen, Conn.absorb_eq_rebuffer_absorb_nil,
    Conn.absorb_nil_incomplete hd]

theorem exec_rxBytes_error {kind : FramingKind}
    (hd : decodeFrame s.cfg.sync (s.st.receiveBuffer ++ chunk) = .framingError kind) :
    exec (.rxBytes chunk) s =
      exec (.rxBytes []) (s.withConn
        ((s.st.record kind.tag).rebuffer (resync s.cfg.sync (s.st.receiveBuffer ++ chunk)))) := by
  have hlt := resync_length_lt_of_error hd
  rw [List.length_append] at hlt
  refine exec_rxBytes_of_absorb hopen hfit ?_ hlt.le
  rw [Conn.absorb_eq_rebuffer_absorb_nil, Conn.absorb_nil_error hd]
  exact (Conn.whenOpen_open (by exact hopen)).symm

theorem exec_rxBytes_frame {id flags : Byte} {payload : Bytes} {n : Nat}
    (hd : decodeFrame s.cfg.sync (s.st.receiveBuffer ++ chunk) = .frame id flags payload n) :
    ∃ t, exec (classify id flags payload) (s.withConn (s.st.rebuffer ((s.st.receiveBuffer ++ chunk).drop n))) = .next t ∧
      exec (.rxBytes chunk) s = exec (.rxBytes []) t := by
  have hlt := drop_length_lt_of_frame hd
  have hhandled := exec_classify id flags payload (s.withConn (s.st.rebuffer ((s.st.receiveBuffer ++ chunk).drop n)))
  rw [Conn.whenOpen_open (by exact hopen)] at hhandled
  refine ⟨_, hhandled, exec_rxBytes_of_absorb hopen hfit ?_ ?_⟩
  · rw [Conn.absorb_eq_rebuffer_absorb_nil, Conn.absorb_nil_frame hd]
    rfl
  · rw [← List.length_append]
    exact (Conn.dispatch_receiveBuffer_length_le ..).trans hlt.le

/-- A whole frame that `resync` finds behind a failing candidate is the next one handled (R123). -/
theorem exec_rxBytes_frame_behind_error {kind : FramingKind} {id flags : Byte} {payload rest : Bytes}
    (hd : decodeFrame s.cfg.sync (s.st.receiveBuffer ++ chunk) = .framingError kind) (hlen : payload.length ≤ maxPayload)
    (hresync : resync s.cfg.sync (s.st.receiveBuffer ++ chunk) = buildFrame s.cfg.sync id flags payload ++ rest) :
    ∃ t, exec (classify id flags payload) (s.withConn ((s.st.record kind.tag).rebuffer rest)) = .next t ∧
      exec (.rxBytes chunk) s = exec (.rxBytes []) t := by
  have hlt := resync_length_lt_of_error hd
  rw [List.length_append] at hlt
  have hfront : decodeFrame s.cfg.sync (resync s.cfg.sync (s.st.receiveBuffer ++ chunk) ++ []) =
      .frame id flags payload (headerLen + payload.length) := by
    rw [hresync, List.append_assoc, decodeFrame_buildFrame_append s.cfg.sync id flags hlen]
  have hrest : (resync s.cfg.sync (s.st.receiveBuffer ++ chunk) ++ []).drop (headerLen + payload.length) = rest := by
    rw [hresync, List.append_nil]
    exact List.drop_left' (buildFrame_length ..)
  obtain ⟨t, hhandled, hgoesOn⟩ := exec_rxBytes_frame (chunk := [])
    (s := s.withConn ((s.st.record kind.tag).rebuffer (resync s.cfg.sync (s.st.receiveBuffer ++ chunk))))
    hopen (capAllows_of_le hfit hlt.le) hfront
  refine ⟨t, ?_, (exec_rxBytes_error hopen hfit hd).trans hgoesOn⟩
  rw [← hhandled, ← hrest]
  rfl

end

/-- Settles O34: `DECODE` takes all of the frame, and with no bytes behind it the loop ends. -/
theorem wholeFrameRunsItsClass : Obligations.WholeFrameRunsItsClass := by
  intro s id flags p hlen hopen hbuf hcap
  have hfit : capAllows s.cfg.rxbufCap
      (s.st.receiveBuffer.length + (buildFrame s.cfg.sync id flags p).length) = true := by
    rw [hbuf, buildFrame_length, List.length_nil, Nat.zero_add]
    exact (capAllows_eq_true ..).mpr hcap
  refine ⟨_, _, decodeRx_buildFrame s.cfg.sync id flags hlen, exec_classify id flags p s, ?_⟩
  rw [exec_rxBytes_of_fits hfit, Conn.whenOpen_open hopen, Conn.whenOpen_open hopen,
    Conn.absorb_buildFrame id flags hlen hbuf]
  rfl

/-- Settles O59: one rule for each answer of `DECODE`, and what `resync` leaves of damaged bytes. -/
theorem receivedBytesAreTakenCandidateByCandidate : Obligations.ReceivedBytesAreTakenCandidateByCandidate := by
  intro s chunk hopen hcap sync b failed starts
  have hfit := (capAllows_eq_true ..).mpr hcap
  have hfailed (kind : FramingKind) :
      failed kind = s.withConn ((s.st.record kind.tag).rebuffer (resync sync b)) := by cases kind <;> rfl
  refine ⟨?incomplete, ?error, ?frame, ?mark, ?damaged⟩
  case incomplete => exact fun hd => exec_rxBytes_incomplete hopen hfit hd
  case error =>
    intro kind hd
    rw [hfailed]
    exact exec_rxBytes_error hopen hfit hd
  case frame => exact fun id flags p n hd => exec_rxBytes_frame hopen hfit hd
  case mark =>
    intro before rest hbefore hb
    rw [hb]
    exact resync_keeps_mark rest hbefore
  case damaged =>
    intro damaged id flags p rest kind hdamaged hlen hb hd hfirst
    rw [hfailed]
    exact exec_rxBytes_frame_behind_error hopen hfit hd hlen (resync_finds_frame hb hdamaged hfirst)

end Sys2Proof.Machine
end

section
/-! Chunking (R129): while the bytes are those of undamaged frames, the loop never meets a framing error, so it may stop at any
byte and go on with the rest. -/

namespace Sys2Proof.Machine

/-- The bytes of frames within the bound, one behind another, the last perhaps not to its end: what an undamaged channel has
delivered at some moment. -/
def Undamaged (sync : BitVec 32) (b : Bytes) : Prop :=
  ∃ frames : List (Byte × Byte × Bytes), (∀ f ∈ frames, f.2.2.length ≤ maxPayload) ∧
    b <+: frames.flatMap fun f => buildFrame sync f.1 f.2.1 f.2.2

theorem Undamaged.of_prefix {sync : BitVec 32} {a b : Bytes} (h : Undamaged sync b) (hab : a <+: b) : Undamaged sync a := by
  obtain ⟨frames, hlen, hb⟩ := h
  exact ⟨frames, hlen, hab.trans hb⟩

/-- The first bytes of a stream that opens with a frame are no complete candidate or hold all of the frame (R108). -/
theorem decodeFrame_of_prefix {sync : BitVec 32} {b stream : Bytes} {id flags : Byte} {payload : Bytes}
    (hlen : payload.length ≤ maxPayload) (hb : b <+: buildFrame sync id flags payload ++ stream) :
    decodeFrame sync b = .incomplete ∨ ∃ rest, b = buildFrame sync id flags payload ++ rest := by
  have hf : buildFrame sync id flags payload <+: buildFrame sync id flags payload ++ stream := List.prefix_append ..
  by_cases hshort : b.length < headerLen + payload.length
  · have hcut : b <+: buildFrame sync id flags payload :=
      List.prefix_of_prefix_length_le hb hf (by rw [buildFrame_length]; exact hshort.le)
    rw [List.prefix_iff_eq_take.mp hcut]
    exact .inl (decodeFrame_take_buildFrame sync id flags hlen hshort)
  · obtain ⟨rest, hrest⟩ : buildFrame sync id flags payload <+: b :=
      List.prefix_of_prefix_length_le hf hb (by rw [buildFrame_length]; omega)
    exact .inr ⟨rest, hrest.symm⟩

/-- Of an undamaged stream, the bytes received are no complete candidate or begin with a whole frame. -/
theorem Undamaged.front {sync : BitVec 32} {b x : Bytes} (h : Undamaged sync (b ++ x)) :
    decodeFrame sync b = .incomplete ∨
      ∃ id flags payload rest, payload.length ≤ maxPayload ∧ b = buildFrame sync id flags payload ++ rest ∧
        Undamaged sync (rest ++ x) := by
  obtain ⟨frames, hlen, hb⟩ := h
  cases frames with
  | nil =>
    have hnil : b = [] := (List.append_eq_nil_iff.mp (List.prefix_nil.mp hb)).1
    exact .inl (by rw [hnil]; rfl)
  | cons f frames =>
    obtain ⟨id, flags, payload⟩ := f
    rw [List.forall_mem_cons] at hlen
    rw [List.flatMap_cons] at hb
    refine (decodeFrame_of_prefix hlen.1 ((List.prefix_append b x).trans hb)).imp_right ?_
    rintro ⟨rest, rfl⟩
    rw [List.append_assoc, List.prefix_append_right_inj] at hb
    exact ⟨id, flags, payload, rest, hlen.1, rfl, frames, hlen.2, hb⟩

section
variable {cfg : Config} {c : Conn}

/-- Handling a frame does not look at the bytes behind it, so they may come later (R121). -/
theorem Conn.dispatch_rebuffer_append (id flags : Byte) (payload rest x : Bytes) (hopen : c.connState ≠ .closed) :
    (c.rebuffer (rest ++ x)).dispatch cfg id flags payload =
      ((c.rebuffer rest).dispatch cfg id flags payload).whenOpen fun d => d.rebuffer (d.receiveBuffer ++ x) := by
  obtain ⟨b, hb⟩ := receiveBuffer_unread.dispatch cfg id flags payload (rest ++ x) (c.rebuffer rest)
  have hboth : (c.rebuffer (rest ++ x)).dispatch cfg id flags payload =
    ((c.rebuffer rest).dispatch cfg id flags payload).rebuffer b := hb
  have hkeeps := KeepsBuffer.dispatch cfg id flags payload (c.rebuffer (rest ++ x))
  rw [hboth] at hkeeps ⊢
  by_cases hclosed : ((c.rebuffer rest).dispatch cfg id flags payload).connState = .closed
  · have hb_nil : b = [] := hkeeps.receiveBuffer_of_closing hopen hclosed
    have hleft := (KeepsBuffer.dispatch cfg id flags payload (c.rebuffer rest)).receiveBuffer_of_closing hopen hclosed
    rw [whenOpen_closed hclosed, hb_nil, ← hleft]
    rfl
  · have hb_all : b = rest ++ x := hkeeps.receiveBuffer_of_open hclosed
    rw [whenOpen_open hclosed, hb_all, dispatch_rebuffer_receiveBuffer hclosed]

/-- An undamaged stream may be cut anywhere: the loop run on the first part, and then, unless the connection has closed, on
what it left and the second part, does what it does on both at once. -/
theorem Conn.absorb_eq_absorb_nil_absorb {x : Bytes} (hopen : c.connState ≠ .closed)
    (h : Undamaged cfg.sync (c.receiveBuffer ++ x)) :
    c.absorb cfg x = (c.absorb cfg []).whenOpen (Conn.absorb cfg x) := by
  induction hn : c.receiveBuffer.length using Nat.strong_induction_on generalizing c with
  | _ n ih =>
    rcases h.front with hd | ⟨id, flags, payload, rest, hlen, hbytes, hrest⟩
    · rw [absorb_nil_incomplete hd, whenOpen_open hopen]
    · rw [absorb_of_buildFrame_append (rest := rest) (chunk := []) hlen (by rw [hbytes, List.append_nil]),
        absorb_of_buildFrame_append (rest := rest ++ x) (chunk := x) hlen (by rw [hbytes, List.append_assoc]),
        dispatch_rebuffer_append id flags payload rest x hopen]
      by_cases hclosed : ((c.rebuffer rest).dispatch cfg id flags payload).connState = .closed
      · rw [whenOpen_closed hclosed, whenOpen_closed hclosed, whenOpen_closed hclosed]
      · have hleft := dispatch_rebuffer_receiveBuffer hclosed
        have hlt : rest.length < n := by rw [← hn, hbytes, List.length_append, buildFrame_length, headerLen]; omega
        rw [whenOpen_open hclosed, whenOpen_open hclosed, whenOpen_open (by exact hclosed),
          ← absorb_eq_rebuffer_absorb_nil]
        exact ih rest.length hlt hclosed (by rwa [hleft]) (by rw [hleft])

theorem Conn.absorb_append {a x : Bytes} (hopen : c.connState ≠ .closed)
    (h : Undamaged cfg.sync (c.receiveBuffer ++ (a ++ x))) :
    c.absorb cfg (a ++ x) = (c.absorb cfg a).whenOpen (Conn.absorb cfg x) := by
  rw [← List.append_assoc] at h
  calc c.absorb cfg (a ++ x)
      = (c.rebuffer (c.receiveBuffer ++ a)).absorb cfg x := by
        rw [absorb_eq_rebuffer_absorb_nil, absorb_eq_rebuffer_absorb_nil (chunk := x), ← List.append_assoc]
        rfl
    _ = ((c.rebuffer (c.receiveBuffer ++ a)).absorb cfg []).whenOpen (Conn.absorb cfg x) :=
        absorb_eq_absorb_nil_absorb (c := c.rebuffer (c.receiveBuffer ++ a)) hopen h
    _ = (c.absorb cfg a).whenOpen (Conn.absorb cfg x) := by rw [← absorb_eq_rebuffer_absorb_nil]

/-- The loop does not lengthen what is buffered. -/
theorem Conn.absorb_receiveBuffer_length_le (cfg : Config) (chunk : Bytes) (c : Conn) :
    (c.absorb cfg chunk).receiveBuffer.length ≤ c.receiveBuffer.length + chunk.length := by
  refine extract_induction (P := fun d => d.receiveBuffer.length ≤ c.receiveBuffer.length + chunk.length)
    ?frame ?error _ _ (List.length_append ..).le
  case frame =>
    intro d id flags payload n hle hd
    exact ((dispatch_receiveBuffer_length_le ..).trans (drop_length_lt_of_frame hd).le).trans hle
  case error => exact fun d kind hle hd => (resync_length_lt_of_error hd).le.trans hle

/-- Two chunks of an undamaged stream leave what their bytes in one chunk leave (R129). -/
theorem Conn.rx_append {a x : Bytes} (h : Undamaged cfg.sync (c.receiveBuffer ++ (a ++ x)))
    (hfit : capAllows cfg.rxbufCap (c.receiveBuffer.length + (a ++ x).length) = true) :
    (c.rx cfg (a ++ x)).2 = ((c.rx cfg a).2.rx cfg x).2 := by
  by_cases hc : c.connState = .closed
  · rw [rx_closed hc, rx_closed hc, rx_closed hc]
  · have hsum : c.receiveBuffer.length + (a ++ x).length = c.receiveBuffer.length + a.length + x.length := by
      rw [List.length_append, Nat.add_assoc]
    have hfit_a : capAllows cfg.rxbufCap (c.receiveBuffer.length + a.length) = true :=
      capAllows_of_le hfit (hsum ▸ Nat.le_add_right ..)
    have hfit_x : capAllows cfg.rxbufCap ((c.absorb cfg a).receiveBuffer.length + x.length) = true :=
      capAllows_of_le hfit (hsum ▸ Nat.add_le_add_right (absorb_receiveBuffer_length_le cfg a c) _)
    rw [rx_of_fits hfit, rx_of_fits hfit_a, whenOpen_open hc, whenOpen_open hc, absorb_append hc h, rx_of_fits hfit_x]

end

/-- The Connection after chunks, one event each. -/
def Conn.rxAll (cfg : Config) (chunks : List Bytes) (c : Conn) : Conn :=
  chunks.foldl (fun d chunk => (d.rx cfg chunk).2) c

/-- The chunks of an undamaged stream, however cut, leave what the stream in one chunk leaves (R129). -/
theorem Conn.rxAll_eq_rx_flatten {cfg : Config} {c : Conn} (hbuf : c.receiveBuffer = []) {chunks : List Bytes}
    (h : Undamaged cfg.sync chunks.flatten) (hfit : capAllows cfg.rxbufCap chunks.flatten.length = true) :
    c.rxAll cfg chunks = (c.rx cfg chunks.flatten).2 := by
  induction chunks using List.reverseRecOn with
  | nil =>
    have hd : decodeFrame cfg.sync c.receiveBuffer = .incomplete := by rw [hbuf]; rfl
    exact (rx_nil_of_incomplete hd).symm
  | append_singleton chunks x ih =>
    rw [List.flatten_concat] at h hfit ⊢
    have hfit_front := capAllows_of_le hfit (List.length_append ▸ Nat.le_add_right ..)
    have hsplit : (c.rx cfg (chunks.flatten ++ x)).2 = ((c.rx cfg chunks.flatten).2.rx cfg x).2 :=
      rx_append (by rwa [hbuf]) (by rwa [hbuf, List.length_nil, Nat.zero_add])
    rw [hsplit, ← ih (h.of_prefix (List.prefix_append ..)) hfit_front]
    exact List.foldl_concat ..

/-! ### The run -/

theorem run_succ_of_step {s t : State} (n : Nat) (h : core.step s = .next t) : core.run (n + 1) s = core.run n t := by
  simp only [Host.Core.run, h]

/-- A slot with `RX_BYTES chunk` alone; `decodeEvent` reads it as such (R74). -/
def rxSlot (chunk : Bytes) : List EventWord := [{ op := 0x8, args := { bytes := chunk } }]

/-- A run over a schedule of `RX_BYTES`, one event a slot, leaves the Connection after its chunks (R50, R120). -/
theorem run_rxBytes (chunks : List Bytes) (s : State) (hslots : s.slots = chunks.map rxSlot) :
    ∃ t : State, core.run chunks.length s = .next t ∧ t.st = s.st.rxAll s.cfg chunks := by
  induction chunks generalizing s with
  | nil => exact ⟨s, rfl, rfl⟩
  | cons chunk chunks ih =>
    have hnext : nextEvent s.slots = some ({ op := 0x8, args := { bytes := chunk } }, chunks.map rxSlot) := by
      rw [hslots, List.map_cons, rxSlot, nextEvent_single]
    obtain ⟨s', hexec, hcfg, hslots'⟩ :=
      exec_answers_keeping_cfg_slots (.rxBytes chunk) { s with slots := chunks.map rxSlot }
    have hstep : core.step s = .next s' := (step_of_nextEvent hnext).trans hexec
    obtain ⟨t, ht, hst⟩ := ih s' hslots'
    refine ⟨t, (run_succ_of_step _ hstep).trans ht, ?_⟩
    rw [hst, hcfg, st_of_exec hexec]
    rfl

/-- Settles O38: a run leaves the Connection after its chunks, and those of an undamaged stream may be joined. -/
theorem chunkingOfAnUndamagedStreamDoesNotMatter : Obligations.ChunkingOfAnUndamagedStreamDoesNotMatter := by
  intro s frames id flags p n chunks wire stream events hlens hlen _ hchunks hbuf hcap
  have hundamaged : Undamaged s.cfg.sync stream := by
    refine ⟨frames ++ [(id, flags, p)], List.forall_mem_append.mpr ⟨hlens, List.forall_mem_singleton.mpr hlen⟩, ?_⟩
    rw [List.flatMap_append, List.flatMap_singleton, List.prefix_append_right_inj]
    exact List.take_prefix ..
  have hfit : capAllows s.cfg.rxbufCap stream.length = true := (capAllows_eq_true ..).mpr hcap
  obtain ⟨t, ht, htst⟩ := run_rxBytes chunks (events chunks) rfl
  obtain ⟨u, hu, hust⟩ := run_rxBytes [stream] (events [stream]) rfl
  refine ⟨t, u, ht, hu, htst.trans (Eq.trans ?_ hust.symm)⟩
  rw [← hchunks] at hundamaged hfit ⊢
  exact Conn.rxAll_eq_rx_flatten hbuf hundamaged hfit

end Sys2Proof.Machine
end

section
/-! `SEND`, `SEND.END` and `RECEIVE` as events: an equation for each case of R130 to R134. -/

namespace Sys2Proof.Machine

/-! ### The Connection -/

section
variable {sync : BitVec 32} {isEnd : Bool} {payload : Bytes} {c : Conn}

/-- `SEND` after the connection or its send side has ended (R131). -/
theorem Conn.send_of_ended (h : c.connState = .closed ∨ c.endAcked = true) :
    c.send sync isEnd payload = (.fatal .connectionClosed, c) := if_pos h

/-- While the send side is open, the first test of `SEND` passes (R131). -/
theorem Conn.send_of_live (hopen : c.connState ≠ .closed) (hacked : c.endAcked = false) :
    c.send sync isEnd payload =
      if payload.length > maxPayload then (.refused .payloadTooLong, c)
      else if c.connState = .awaitingAck then (.busy, c)
      else (.accepted, c.transmit (c.sendFrame sync isEnd payload) isEnd) := if_neg (by simp [hopen, hacked])

theorem Conn.send_of_tooLong (hopen : c.connState ≠ .closed) (hacked : c.endAcked = false)
    (hlen : maxPayload < payload.length) : c.send sync isEnd payload = (.refused .payloadTooLong, c) := by
  rw [send_of_live hopen hacked, if_pos hlen]

theorem Conn.send_of_awaiting (hawait : c.connState = .awaitingAck) (hacked : c.endAcked = false)
    (hlen : payload.length ≤ maxPayload) : c.send sync isEnd payload = (.busy, c) := by
  rw [send_of_live (by simp [hawait]) hacked, if_neg (Nat.not_lt.mpr hlen), if_pos hawait]

theorem Conn.send_of_idle (hidle : c.connState = .idle) (hacked : c.endAcked = false)
    (hlen : payload.length ≤ maxPayload) :
    c.send sync isEnd payload = (.accepted, c.transmit (c.sendFrame sync isEnd payload) isEnd) := by
  rw [send_of_live (by simp [hidle]) hacked, if_neg (Nat.not_lt.mpr hlen), if_neg (by simp [hidle])]

theorem Conn.receive_of_fatal {k : Abort} (hfatal : c.fatalPending = some k) :
    c.receive = (.fatal k.fatalKind, { c with fatalPending := none }) := by
  rw [receive, hfatal]

theorem Conn.receive_of_queued {item : Item} {rest : List Item} (hfatal : c.fatalPending = none)
    (hqueue : c.deliveryQueue = item :: rest) : c.receive = (item.response, { c with deliveryQueue := rest }) := by
  rw [receive, hfatal, hqueue]

/-- With nothing ready `RECEIVE` reports the state and takes nothing (R134). -/
theorem Conn.receive_of_nothing_ready (hfatal : c.fatalPending = none) (hqueue : c.deliveryQueue = []) :
    c.receive =
      (if c.connState = .closed then .fatal .connectionClosed
        else if c.peerEndReceived = true then .endOfStream
        else .pending, c) := by
  rcases c.receive_cases with ⟨k, hk, -⟩ | ⟨item, rest, -, hq, -⟩ | ⟨-, -, hconn, hanswer⟩
  · simp [hfatal] at hk
  · simp [hqueue] at hq
  · exact Prod.ext hanswer hconn

end

/-! ### The machine -/

theorem exec_sendOp (isEnd : Bool) (payload : Bytes) (s : State) :
    exec (sendOp isEnd payload) s =
      .next ((s.withConn (s.st.send s.cfg.sync isEnd payload).2).answer
        (some (s.st.send s.cfg.sync isEnd payload).1)) := by
  cases isEnd <;> rfl

/-- An operation is one of the two sends exactly if it is a `sendOp`. -/
theorem eq_sendOp_iff {i : Instr} {payload : Bytes} :
    i = .send payload ∨ i = .sendEnd payload ↔ ∃ isEnd, i = sendOp isEnd payload := by
  simp [sendOp]

/-- An accepted `SEND` or `SEND.END` (R130, R132, R133). -/
theorem exec_sendOp_of_idle {isEnd : Bool} {payload : Bytes} {s : State} (hidle : s.st.connState = .idle)
    (hacked : s.st.endAcked = false) (hlen : payload.length ≤ maxPayload) :
    exec (sendOp isEnd payload) s =
      .next ((s.withConn (s.st.transmit (s.st.sendFrame s.cfg.sync isEnd payload) isEnd)).answer (some .accepted)) := by
  rw [exec_sendOp, Conn.send_of_idle hidle hacked hlen]

/-- Settles O17: an accepted send without END leaves `end_sent` as it was. -/
theorem sendTransmitsAndKeepsTheFrame : Obligations.SendTransmitsAndKeepsTheFrame := by
  intro s p hidle hacked hlen f
  have hsent := exec_sendOp_of_idle (isEnd := false) hidle hacked hlen
  rw [Conn.transmit, Bool.or_false] at hsent
  exact hsent

/-- Settles O18: an accepted send with END sets `end_sent`. -/
theorem sendEndTransmitsAndMarksTheEnd : Obligations.SendEndTransmitsAndMarksTheEnd := by
  intro s p hidle hacked hlen f
  have hsent := exec_sendOp_of_idle (isEnd := true) hidle hacked hlen
  rw [Conn.transmit, Bool.or_true] at hsent
  exact hsent

/-- Settles O19: a refused `SEND` or `SEND.END` answers and leaves the Connection. -/
theorem sendRefusesInOrder : Obligations.SendRefusesInOrder := by
  intro s p i hi answers
  obtain ⟨isEnd, rfl⟩ := eq_sendOp_iff.mp hi
  have hrefused (r : Response) (h : s.st.send s.cfg.sync isEnd p = (r, s.st)) : answers r := by
    have hexec := exec_sendOp isEnd p s
    rw [h] at hexec
    exact hexec
  refine ⟨fun hended => hrefused _ ?ended, fun hopen hacked hlen => hrefused _ ?tooLong,
    fun hawait hacked hlen => hrefused _ ?awaiting⟩
  case ended => exact Conn.send_of_ended hended
  case tooLong => exact Conn.send_of_tooLong hopen hacked hlen
  case awaiting => exact Conn.send_of_awaiting hawait hacked hlen

/-- `RECEIVE` gives the answer and leaves the Connection of `Conn.receive` (R134). -/
theorem exec_receive_of {s : State} {r : Response} {c : Conn} (h : s.st.receive = (r, c)) :
    exec .receive s = .next ((s.withConn c).answer (some r)) := by
  rw [exec, execReceive, h]

/-- Settles O20: one equation of `RECEIVE` for each of the three things it looks at. -/
theorem receiveTakesWhatIsReady : Obligations.ReceiveTakesWhatIsReady := by
  intro s
  refine ⟨?fatal, ?payload, ?endOfStream, ?nothing⟩
  case fatal =>
    intro k hfatal
    rw [exec_receive_of (Conn.receive_of_fatal hfatal)]
    cases k <;> rfl
  case payload => exact fun b rest hfatal hqueue => exec_receive_of (Conn.receive_of_queued hfatal hqueue)
  case endOfStream => exact fun rest hfatal hqueue => exec_receive_of (Conn.receive_of_queued hfatal hqueue)
  case nothing => exact fun hfatal hqueue => exec_receive_of (Conn.receive_of_nothing_ready hfatal hqueue)

end Sys2Proof.Machine
end

section
/-! The received frames as operations (R135 to R144): an equation for each case of an ACK and of a data frame. -/

namespace Sys2Proof.Machine

/-! ### The Connection -/

section
variable {c : Conn}

theorem Conn.checkDone_of_done (hacked : c.endAcked = true) (hend : c.peerEndReceived = true)
    (hopen : c.connState ≠ .closed) : c.checkDone = c.close .normal := if_pos ⟨hacked, hend, hopen⟩

theorem Conn.checkDone_of_undone (h : c.endAcked = false ∨ c.peerEndReceived = false) : c.checkDone = c := by
  refine if_neg fun ⟨hacked, hend, _⟩ => ?_
  simp [hacked, hend] at h

theorem Conn.onAck_of_match {id : Byte} {f : Bytes} (hf : c.outstandingFrame = some f) (hid : byteAt f 12 = id) :
    c.onAck id = (c.retire (hasFlag (byteAt f 13) flagEnd)).checkDone := by
  simp only [onAck, hf, hid, if_true]

theorem Conn.onAck_of_stale {id : Byte} (h : ∀ f, c.outstandingFrame = some f → byteAt f 12 ≠ id) :
    c.onAck id = c.record .staleAck := by
  rcases c.onAck_cases id with ⟨f, hf, hid, -⟩ | ⟨-, e⟩
  · exact absurd hid.symm (h f hf)
  · exact e

section
variable {cfg : Config} {id : Byte} {items : List Item} {accepted : Conn → Conn}

theorem Conn.onData_of_duplicate (hdup : c.lastAcceptedId = some id) :
    c.onData cfg id items accepted = c.reack cfg.sync id := if_pos hdup

theorem Conn.onData_of_overflow (hnew : c.lastAcceptedId ≠ some id)
    (hfull : capAllows cfg.deliveryCap (c.deliveryQueue.length + items.length) = false) :
    c.onData cfg id items accepted = c.record .deliveryOverflow := by
  rw [onData, if_neg hnew, if_pos hfull]

theorem Conn.onData_of_room (hnew : c.lastAcceptedId ≠ some id)
    (hroom : capAllows cfg.deliveryCap (c.deliveryQueue.length + items.length) = true) :
    c.onData cfg id items accepted = accepted (c.accept cfg.sync id items) := by
  rw [onData, if_neg hnew, if_neg (by simp [hroom])]

end

/-- END is bit 6 of the flags (R66). -/
theorem hasFlag_flagEnd : ∀ flags : Byte, hasFlag flags flagEnd = flags.getLsbD 6 := by decide

theorem endItems_length (payload : Bytes) : (endItems payload).length = if payload = [] then 1 else 2 := by
  unfold endItems
  split <;> rfl

end

/-! ### The machine: a frame handed over in an open connection -/

section
variable {s : State} {id flags : Byte} {p : Bytes} (hopen : s.st.connState ≠ .closed)
include hopen

/-- In an open connection the guard of a procedure does nothing (R126). -/
theorem exec_of_whenOpen {i : Instr} {f : Conn → Conn} (h : exec i s = .next (s.withConn (s.st.whenOpen f))) :
    exec i s = .next (s.withConn (f s.st)) := by
  rw [h, Conn.whenOpen_open hopen]

theorem exec_fRst_open : exec (.fRst id flags p) s = .next (s.withConn s.st.onRst) := exec_of_whenOpen hopen rfl

theorem exec_fAck_open : exec (.fAck id flags p) s = .next (s.withConn (s.st.onAck id)) := exec_of_whenOpen hopen rfl

theorem exec_fData_open :
    exec (.fData id flags p) s = .next (s.withConn (s.st.onData s.cfg id [.payload p] fun a => a)) :=
  exec_of_whenOpen (f := Conn.onDataPlain s.cfg id p) hopen rfl

theorem exec_fDataEnd_open :
    exec (.fDataEnd id flags p) s =
      .next (s.withConn (s.st.onData s.cfg id (endItems p) fun a => { a with peerEndReceived := true }.checkDone)) :=
  exec_of_whenOpen (f := Conn.onDataEnd s.cfg id p) hopen rfl

end

/-- Settles O22: the frame is handled by `on_rst`, whatever it carries. -/
theorem receivedRstClosesAndDiscards : Obligations.ReceivedRstClosesAndDiscards :=
  fun _ _ _ _ hopen => exec_fRst_open hopen

/-- Settles O23: the frame is retired, and `check_done` looks at the flags that leaves. -/
theorem matchingAckRetiresTheFrame : Obligations.MatchingAckRetiresTheFrame := by
  intro s id flags p f hopen hf hid acked retired
  have hretired : s.st.retire (hasFlag (byteAt f 13) flagEnd) = retired := by
    rw [hasFlag_flagEnd]
    rfl
  have hexec : exec (.fAck id flags p) s = .next (s.withConn retired.checkDone) := by
    rw [exec_fAck_open hopen, Conn.onAck_of_match hf hid, hretired]
  rw [hexec]
  constructor
  · intro hundone
    rw [Conn.checkDone_of_undone (c := retired) hundone]
    rfl
  · intro hacked hend
    rw [Conn.checkDone_of_done (c := retired) hacked hend (by simp [retired])]
    rfl

/-- Settles O24: without a match `on_ack` only records. -/
theorem staleAckChangesNothing : Obligations.StaleAckChangesNothing := by
  intro s id flags p hopen hstale
  rw [exec_fAck_open hopen, Conn.onAck_of_stale hstale]
  rfl

/-- Settles O25: the duplicate test comes before anything that END or the payload decide. -/
theorem duplicateIsAcknowledgedNotDelivered : Obligations.DuplicateIsAcknowledgedNotDelivered := by
  rintro s id flags p i (rfl | rfl) hopen hdup
  · rw [exec_fData_open hopen, Conn.onData_of_duplicate hdup]
    rfl
  · rw [exec_fDataEnd_open hopen, Conn.onData_of_duplicate hdup]
    rfl

/-- Settles O26: the payload is the one item queued. -/
theorem newDataIsAcknowledgedAndQueued : Obligations.NewDataIsAcknowledgedAndQueued := by
  intro s id flags p hopen hnew hroom
  rw [exec_fData_open hopen, Conn.onData_of_room hnew ((capAllows_eq_true ..).mpr hroom)]
  rfl

/-- Settles O27: the acceptance, and `check_done` after the peer's END. -/
theorem newEndIsAcknowledgedQueuedAndMayClose : Obligations.NewEndIsAcknowledgedQueuedAndMayClose := by
  intro s id flags p hopen hnew items hroom accepted
  have hfits : capAllows s.cfg.deliveryCap (s.st.deliveryQueue.length + (endItems p).length) = true :=
    (capAllows_eq_true ..).mpr hroom
  have hexec : exec (.fDataEnd id flags p) s = .next (s.withConn accepted.checkDone) := by
    rw [exec_fDataEnd_open hopen, Conn.onData_of_room hnew hfits]
    rfl
  rw [hexec]
  constructor
  · intro hunacked
    rw [Conn.checkDone_of_undone (c := accepted) (.inl hunacked)]
    rfl
  · intro hacked
    rw [Conn.checkDone_of_done (c := accepted) hacked rfl hopen]
    rfl

/-- Settles O28: `need` counts the items that the frame would queue. -/
theorem overflowingDataIsDropped : Obligations.OverflowingDataIsDropped := by
  intro s id flags p i need cap hi hopen hnew hcap hfull
  have hunfit (items : List Item) (h : need = items.length) :
      capAllows s.cfg.deliveryCap (s.st.deliveryQueue.length + items.length) = false :=
    (capAllows_eq_false ..).mpr ⟨cap, hcap, h ▸ hfull⟩
  rcases hi with ⟨rfl, hneed⟩ | ⟨rfl, hneed⟩
  · rw [exec_fData_open hopen, Conn.onData_of_overflow hnew (hunfit [.payload p] hneed)]
    rfl
  · rw [exec_fDataEnd_open hopen, Conn.onData_of_overflow hnew (hunfit _ (hneed.trans (endItems_length p).symm))]
    rfl

end Sys2Proof.Machine
end

section
/-! One payload across the channel, from one machine to another and back (R130, R137, R139, R140). -/

namespace Sys2Proof.Machine

/-- The bytes of a frame into an empty buffer do what its class's operation does, and are accepted (R120, R121, R135). -/
theorem exec_rxBytes_buildFrame {s t : State} {sync : BitVec 32} {id flags : Byte} {p : Bytes} (hsync : sync = s.cfg.sync)
    (hlen : p.length ≤ maxPayload) (hopen : s.st.connState ≠ .closed) (hbuf : s.st.receiveBuffer = [])
    (hcap : ∀ cap, s.cfg.rxbufCap = some cap → 14 + p.length ≤ cap) (h : exec (classify id flags p) s = .next t) :
    exec (.rxBytes (buildFrame sync id flags p)) s = .next (t.answer (some .rxAccepted)) := by
  subst hsync
  obtain ⟨i, u, hi, hu, hrx⟩ := wholeFrameRunsItsClass s id flags p hlen hopen hbuf hcap
  obtain rfl : classify id flags p = i := Except.ok.inj ((decodeRx_buildFrame s.cfg.sync id flags hlen).symm.trans hi)
  obtain rfl : u = t := Host.Outcome.next.inj (hu.symm.trans h)
  exact hrx

/-- The sender: the ACK of the frame that `SEND` wrote returns it to `Idle` with the other id (R132, R137). -/
theorem exec_send_then_ack {a : State} {p : Bytes} (hlen : p.length ≤ maxPayload) (hidle : a.st.connState = .idle)
    (hacked : a.st.endAcked = false) (hbuf : a.st.receiveBuffer = []) (hcap : ∀ cap, a.cfg.rxbufCap = some cap → 14 ≤ cap) :
    ∃ a₁ a₂, exec (.send p) a = .next a₁ ∧
      a₁.st.txStream = a.st.txStream ++ dataFrame a.cfg.sync a.st.nextSendId p ∧
      exec (.rxBytes (ackFrame a.cfg.sync a.st.nextSendId)) a₁ = .next a₂ ∧
      a₂.st.connState = .idle ∧ a₂.st.outstandingFrame = none ∧ a₂.st.timerArmed = false ∧
      a₂.st.nextSendId = a.st.nextSendId ^^^ 1 := by
  obtain ⟨a₁, hsend, hst, hcfg⟩ : ∃ a₁, exec (.send p) a = .next a₁ ∧
      a₁.st = a.st.transmit (dataFrame a.cfg.sync a.st.nextSendId p) false ∧ a₁.cfg = a.cfg :=
    ⟨_, exec_sendOp_of_idle (isEnd := false) hidle hacked hlen, rfl, rfl⟩
  have hopen : a₁.st.connState ≠ .closed := by simp [hst]
  have hplain : (dataFrame a.cfg.sync a.st.nextSendId p).getD 13 0 = 0x00 := buildFrame_flags ..
  have hmatched := (matchingAckRetiresTheFrame a₁ a.st.nextSendId flagAck [] _ hopen (by rw [hst]; rfl) rfl).1
    (.inl (by rw [hst, Conn.transmit_endAcked, hacked, hplain]; rfl))
  have hack := exec_rxBytes_buildFrame (flags := flagAck) (congrArg Config.sync hcfg.symm) (Nat.zero_le _) hopen
    (by rw [hst]; exact hbuf) (by rw [hcfg]; exact hcap) hmatched
  exact ⟨a₁, _, hsend, by rw [hst]; rfl, hack, rfl, rfl, rfl, by rw [hst]; rfl⟩

/-- The receiver: of two copies of a data frame the first is queued, and both are acknowledged (R139, R140, R142). -/
theorem exec_dataFrame_twice {b : State} {id : Byte} {p : Bytes} (hlen : p.length ≤ maxPayload)
    (hopen : b.st.connState ≠ .closed) (hbuf : b.st.receiveBuffer = []) (hnew : b.st.lastAcceptedId ≠ some id)
    (hcap : ∀ cap, b.cfg.rxbufCap = some cap → 14 + p.length ≤ cap)
    (hroom : ∀ cap, b.cfg.deliveryCap = some cap → b.st.deliveryQueue.length + 1 ≤ cap) :
    ∃ b₁ b₂, exec (.rxBytes (dataFrame b.cfg.sync id p)) b = .next b₁ ∧
      b₁.st.txStream = b.st.txStream ++ ackFrame b.cfg.sync id ∧
      b₁.st.deliveryQueue = b.st.deliveryQueue ++ [.payload p] ∧
      exec (.rxBytes (dataFrame b.cfg.sync id p)) b₁ = .next b₂ ∧
      b₂.st.txStream = b₁.st.txStream ++ ackFrame b.cfg.sync id ∧ b₂.st.deliveryQueue = b₁.st.deliveryQueue := by
  obtain ⟨b₁, hfirst, hst, hcfg⟩ : ∃ b₁, exec (.rxBytes (dataFrame b.cfg.sync id p)) b = .next b₁ ∧
      b₁.st = b.st.accept b.cfg.sync id [.payload p] ∧ b₁.cfg = b.cfg :=
    ⟨_, exec_rxBytes_buildFrame (flags := 0x00) rfl hlen hopen hbuf hcap
      (newDataIsAcknowledgedAndQueued b id 0x00 p hopen hnew hroom), rfl, rfl⟩
  have hopen₁ : b₁.st.connState ≠ .closed := by rw [hst]; exact hopen
  have hduplicate := duplicateIsAcknowledgedNotDelivered b₁ id 0x00 p _ (.inl rfl) hopen₁ (by rw [hst]; rfl)
  have hsecond := exec_rxBytes_buildFrame (flags := 0x00) (congrArg Config.sync hcfg.symm) hlen hopen₁
    (by rw [hst]; exact hbuf) (by rw [hcfg]; exact hcap) hduplicate
  exact ⟨b₁, _, hfirst, by rw [hst]; rfl, by rw [hst]; rfl, hsecond, by rw [← hcfg]; rfl, rfl⟩

/-- Settles O58: with one SYNC, what the sender writes is what the receiver takes, and its ACK is the one the sender matches. -/
theorem onePayloadCrossesTheChannelOnce : Obligations.OnePayloadCrossesTheChannelOnce := by
  intro a b p hsync hlen hidle hacked habuf hacap hopen hbbuf hnew hbcap hroom
  obtain ⟨a₁, a₂, hsend, hsent, hack, hreturned⟩ := exec_send_then_ack hlen hidle hacked habuf hacap
  obtain ⟨b₁, b₂, hfirst, hacked₁, hqueued, hsecond, hacked₂, hkept⟩ :=
    exec_dataFrame_twice hlen hopen hbbuf hnew hbcap hroom
  rw [← hsync] at hfirst hacked₁ hsecond hacked₂
  exact ⟨_, _, a₁, b₁, b₂, a₂, hsend, hsent, hfirst, hacked₁, hqueued, hsecond, hacked₂, hkept, hack, hreturned⟩

end Sys2Proof.Machine
end

section
/-! `TIMER_EXPIRE`, `CH_CLOSE` and `RESET` as events: an equation for each case of R160 to R163, R168 and R171. -/

namespace Sys2Proof.Machine

/-! ### The Connection -/

section
variable {cfg : Config} {c : Conn}

theorem Conn.timerExpire_of_disarmed (hdisarmed : c.timerArmed = false) : c.timerExpire cfg = c := if_pos hdisarmed

/-- Below its top value the counter counts (R15). -/
theorem toNat_count_up {r : BitVec 8} (h : r.toNat < 255) : (r + 1).toNat = r.toNat + 1 :=
  BitVec.toNat_add_of_lt (Nat.add_lt_add_right h 1)

/-- An expiry within the ceiling retransmits (R161). -/
theorem Conn.timerExpire_of_within {f : Bytes} (harmed : c.timerArmed = true) (hf : c.outstandingFrame = some f)
    (hle : c.retryCount.toNat + 1 ≤ cfg.retryCeiling.toNat) :
    c.timerExpire cfg = { c with retryCount := c.retryCount + 1 }.emit f := by
  have hcount := toNat_count_up (r := c.retryCount) (by omega)
  rcases c.timerExpire_cases cfg with ⟨hdisarmed, -⟩ | ⟨-, hlt, -⟩ | ⟨-, -, e⟩
  · simp [harmed] at hdisarmed
  · rw [BitVec.lt_def] at hlt
    omega
  · rw [e, hf, Option.getD_some]

/-- The expiry beyond the ceiling emits one RST frame and closes (R162). -/
theorem Conn.timerExpire_of_beyond (harmed : c.timerArmed = true)
    (hlt : cfg.retryCeiling.toNat < c.retryCount.toNat + 1) (hbits : c.retryCount.toNat < 255) :
    c.timerExpire cfg = (({ c with retryCount := c.retryCount + 1 }.record .retriesExhausted).emit
      (rstFrame cfg.sync)).close .retriesExhausted := by
  have hcount := toNat_count_up hbits
  rcases c.timerExpire_cases cfg with ⟨hdisarmed, -⟩ | ⟨-, -, e⟩ | ⟨-, hle, -⟩
  · simp [harmed] at hdisarmed
  · exact e
  · rw [BitVec.le_def] at hle
    omega

end

/-! ### The machine -/

/-- `TIMER_EXPIRE` leaves the Connection of `Conn.timerExpire` and gives no response (R160). -/
theorem exec_timerExpire_of {s : State} {c : Conn} (h : s.st.timerExpire s.cfg = c) :
    exec .timerExpire s = .next ((s.withConn c).answer none) := by
  rw [exec, execTimerExpire, h]

/-- Settles O39: the timer is tested before anything else. -/
theorem expiryOfADisarmedTimerDoesNothing : Obligations.ExpiryOfADisarmedTimerDoesNothing :=
  fun _ hdisarmed => exec_timerExpire_of (Conn.timerExpire_of_disarmed hdisarmed)

/-- Settles O40: the count is within the ceiling, and the bytes kept are written. -/
theorem expiryRetransmitsTheSameBytes : Obligations.ExpiryRetransmitsTheSameBytes :=
  fun _ _ harmed hf hle => exec_timerExpire_of (Conn.timerExpire_of_within harmed hf hle)

/-- Settles O41: the count exceeds the ceiling, and `CLOSE` writes over the counted retry. -/
theorem expiryBeyondTheCeilingAborts : Obligations.ExpiryBeyondTheCeilingAborts :=
  fun _ harmed hlt hbits => exec_timerExpire_of (Conn.timerExpire_of_beyond harmed hlt hbits)

/-- Settles O43: `CLOSE` with a cause that leaves no fatal condition keeps the queue. -/
theorem channelClosureClosesAndKeepsTheQueue : Obligations.ChannelClosureClosesAndKeepsTheQueue := by
  intro s
  constructor
  · intro hopen
    rw [exec, execChClose, Conn.whenOpen_open hopen]
    rfl
  · intro hclosed
    rw [exec, execChClose, Conn.whenOpen_closed hclosed]
    rfl

/-- Settles O44: `RESET` puts `Conn.reset` in place, which is written as R29's table. -/
theorem resetGivesEveryFieldItsResetValue : Obligations.ResetGivesEveryFieldItsResetValue := fun _ => rfl

end Sys2Proof.Machine
end

section
/-! An unanswered frame: expiry after expiry, up to the ceiling and the one beyond (R161, R162, R224). -/

namespace Sys2Proof.Machine

/-- A run ends with the step taken where a shorter one ended. -/
theorem run_succ_of_run_of_step {s t u : State} {n : Nat} (h : core.run n s = .next t) (hlast : core.step t = .next u) :
    core.run (n + 1) s = .next u := by
  induction n generalizing s with
  | zero =>
    obtain rfl : s = t := Host.Outcome.next.inj h
    exact run_succ_of_step 0 hlast
  | succ n ih =>
    obtain ⟨s', hstep, -⟩ := step_answers_keeping_cfg s
    rw [run_succ_of_step n hstep] at h
    rw [run_succ_of_step (n + 1) hstep]
    exact ih h

/-- A slot with `TIMER_EXPIRE` alone (R74). -/
def expirySlot : List EventWord := [{ op := 0xA }]

/-- A step on such a slot is the expiry; `decodeEvent` reads it as such (R74). -/
theorem step_expirySlot (s : State) (rest : List (List EventWord)) :
    step { s with slots := expirySlot :: rest } = exec .timerExpire { s with slots := rest } :=
  step_of_nextEvent (s := { s with slots := expirySlot :: rest }) (nextEvent_single ..)

/-- The machine after `k` expiries that each retransmitted `f`, with the schedule `rest` to come: the copies are written and
counted (R161). -/
def State.retried (s : State) (f : Bytes) (k : Nat) (rest : List (List EventWord)) (r : Option Response) : State :=
  { s with
    slots := rest
    response := r
    st := { s.st with
      retryCount := BitVec.ofNat 8 k
      txStream := s.st.txStream ++ (List.replicate k f).flatten } }

section
variable {s : State} {f : Bytes} (harmed : s.st.timerArmed = true) (hf : s.st.outstandingFrame = some f)
include harmed hf

/-- One expiry more, within the ceiling (R161). -/
theorem exec_timerExpire_retried {k : Nat} (hk : k + 1 ≤ s.cfg.retryCeiling.toNat) (rest : List (List EventWord))
    (r : Option Response) :
    exec .timerExpire (s.retried f k rest r) = .next (s.retried f (k + 1) rest none) := by
  have hbits := s.cfg.retryCeiling.isLt
  have hcount : (BitVec.ofNat 8 k).toNat = k := by rw [BitVec.toNat_ofNat]; omega
  have hcopies : (List.replicate (k + 1) f).flatten = (List.replicate k f).flatten ++ f := by
    rw [List.replicate_succ', List.flatten_append, List.flatten_singleton]
  have hstep := expiryRetransmitsTheSameBytes (s.retried f k rest r) f harmed hf
    (show (BitVec.ofNat 8 k).toNat + 1 ≤ _ by rwa [hcount])
  rw [hstep, State.retried, State.retried, hcopies, ← List.append_assoc, ← BitVec.ofNat_add_ofNat]
  rfl

/-- Expiries within the ceiling write a copy each, whatever the schedule holds after them (R161). -/
theorem run_expiries (hcount : s.st.retryCount = 0) (k : Nat) (hk : k ≤ s.cfg.retryCeiling.toNat)
    (rest : List (List EventWord)) :
    ∃ r, core.run k { s with slots := List.replicate k expirySlot ++ rest } = .next (s.retried f k rest r) := by
  induction k generalizing rest with
  | zero =>
    refine ⟨s.response, congrArg _ ?_⟩
    have hnone : BitVec.ofNat 8 0 = s.st.retryCount := hcount.symm
    rw [State.retried, hnone, List.replicate_zero, List.replicate_zero, List.flatten_nil, List.append_nil]
    rfl
  | succ k ih =>
    obtain ⟨r, hr⟩ := ih (by omega) (expirySlot :: rest)
    have hslots : List.replicate (k + 1) expirySlot ++ rest = List.replicate k expirySlot ++ expirySlot :: rest := by
      rw [List.replicate_succ', List.append_assoc, List.singleton_append]
    have hlast : core.step (s.retried f k (expirySlot :: rest) r) = .next (s.retried f (k + 1) rest none) :=
      (step_expirySlot (s.retried f k rest r) rest).trans (exec_timerExpire_retried harmed hf hk rest r)
    exact ⟨none, hslots ▸ run_succ_of_run_of_step hr hlast⟩

end

/-- Settles O42: the expiries up to the ceiling retransmit, and the one beyond aborts. -/
theorem unansweredFrameIsRetriedUpToTheCeiling : Obligations.UnansweredFrameIsRetriedUpToTheCeiling := by
  intro s f rest harmed hf hcount hceiling expiries c
  have hretried := run_expiries harmed hf hcount
  refine ⟨fun k hk => hretried k hk rest, ?_⟩
  obtain ⟨r, hr⟩ := hretried c le_rfl (expirySlot :: rest)
  have hslots : expiries (c + 1) = { s with slots := List.replicate c expirySlot ++ expirySlot :: rest } := by
    simp only [expiries, List.replicate_succ', List.append_assoc, List.singleton_append, expirySlot]
  have hbits : (BitVec.ofNat 8 c).toNat = c := BitVec.toNat_ofNat .. ▸ Nat.mod_eq_of_lt s.cfg.retryCeiling.isLt
  have habort := expiryBeyondTheCeilingAborts (s.retried f c rest r) harmed
    (show c < (BitVec.ofNat 8 c).toNat + 1 by omega) (show (BitVec.ofNat 8 c).toNat < 255 by omega)
  have hlast : core.step (s.retried f c (expirySlot :: rest) r) = _ :=
    (step_expirySlot (s.retried f c rest r) rest).trans habort
  have hrun : core.run (c + 1) (expiries (c + 1)) = _ := hslots ▸ run_succ_of_run_of_step hr hlast
  exact ⟨_, hrun, rfl, rfl, rfl, rfl⟩

end Sys2Proof.Machine
end
section
/-! `Closed` is terminal (R126, R131, R134, R163, R167, R168, R195). -/

namespace Sys2Proof.Machine

section
variable {c : Conn} (hclosed : c.connState = .closed)
include hclosed

theorem Conn.send_closed (sync : BitVec 32) (isEnd : Bool) (payload : Bytes) : (c.send sync isEnd payload).2 = c := by
  rw [send_of_ended (.inl hclosed)]

/-- In `Closed` with the timer not armed (R28 I2) an operation other than `RESET` leaves the Connection, but for what
`RECEIVE` takes. -/
theorem Conn.after_of_closed (cfg : Config) (hdisarmed : c.timerArmed = false) {i : Instr} (hreset : i ≠ .reset) :
    c.after cfg i = c ∨ i = .receive := by
  cases i with
  | reset => exact absurd rfl hreset
  | receive => exact .inr rfl
  | send payload => exact .inl (send_closed hclosed cfg.sync false payload)
  | sendEnd payload => exact .inl (send_closed hclosed cfg.sync true payload)
  | rxBytes chunk => exact .inl (congrArg Prod.snd (rx_closed hclosed))
  | timerExpire => exact .inl (timerExpire_of_disarmed hdisarmed)
  | chClose | fRst | fAck | fDataEnd | fData => exact .inl (whenOpen_closed hclosed)
  | txData id payload => exact .inl (emitEncoded_closed cfg.sync id 0x00 payload hclosed)
  | txDataEnd id payload => exact .inl (emitEncoded_closed cfg.sync id flagEnd payload hclosed)
  | txAck id => exact .inl (emitEncoded_closed cfg.sync id flagAck [] hclosed)
  | txRst => exact .inl (emitEncoded_closed cfg.sync 0x00 flagRst [] hclosed)
  | cksum | encodeFrame | decodeFrame | rdstat => exact .inl rfl
  | reserved0 | reservedB | reservedC | reservedD | reservedE => exact .inl rfl

end

/-- What `RECEIVE` takes: nothing, the pending fatal kind, or the first item (R134). -/
theorem Conn.receive_takes (c : Conn) :
    c.receive.2 = c ∨ c.receive.2 = { c with fatalPending := none } ∨
      ∃ item rest, c.deliveryQueue = item :: rest ∧ c.receive.2 = { c with deliveryQueue := rest } := by
  rcases c.receive_cases with ⟨k, -, e⟩ | ⟨item, rest, -, hqueue, e⟩ | ⟨-, -, e, -⟩
  · exact .inr (.inl (by rw [e]))
  · exact .inr (.inr ⟨item, rest, hqueue, by rw [e]⟩)
  · exact .inl e

/-- Settles O54: only `RECEIVE` takes something in `Closed`. -/
theorem closedIsTerminal : Obligations.ClosedIsTerminal := by
  intro s t i hreset hclosed hdisarmed h
  rw [st_of_exec h]
  rcases Conn.after_of_closed hclosed s.cfg hdisarmed hreset with hkept | rfl
  · exact .inl hkept
  · exact s.st.receive_takes.imp_right fun htaken => ⟨rfl, htaken⟩

end Sys2Proof.Machine
end

section
/-! The received frames in the transition table (R165). From a good state a frame leaves `conn_state`, `next_send_id` and
`end_acked`, or is one of three rows of the table; so do frames run one after another. -/

namespace Sys2Proof.Machine

/-- The connection is closed with cause `Normal`, both halves of the END exchange complete (R144). -/
def Conn.ClosedNormally (d : Conn) : Prop :=
  d.connState = .closed ∧ d.closeCause = some .normal ∧ d.endAcked = true ∧ d.peerEndReceived = true

/-- From `c` to `d` nothing changed that a row of the transition table for received frames looks at. -/
def Conn.StaysPut (c d : Conn) : Prop :=
  d.connState = c.connState ∧ d.nextSendId = c.nextSendId ∧ d.endAcked = c.endAcked

/-! ### `check_done` -/

@[simp] theorem Conn.checkDone_endAcked (c : Conn) : c.checkDone.endAcked = c.endAcked := by
  rcases c.checkDone_cases with ⟨-, -, -, e⟩ | ⟨-, e⟩ <;> rw [e]
  rfl

@[simp] theorem Conn.checkDone_peerEndReceived (c : Conn) : c.checkDone.peerEndReceived = c.peerEndReceived := by
  rcases c.checkDone_cases with ⟨-, -, -, e⟩ | ⟨-, e⟩ <;> rw [e]
  rfl

/-! ### One frame -/

section
variable {cfg : Config} {c : Conn}

/-- An ACK is stale, or from `AwaitingAck` matches `next_send_id`, the id of the outstanding frame (R28 I1, I5), and
returns to `Idle` or completes the END exchange (R137, R144). -/
theorem Conn.Inv.onAck_row (h : c.Inv cfg) (id : Byte) :
    c.StaysPut (c.onAck id) ∨
    c.connState = .awaitingAck ∧ id = c.nextSendId ∧ (c.onAck id).peerEndReceived = c.peerEndReceived ∧
      (if (c.onAck id).endAcked = true ∧ c.peerEndReceived = true
        then (c.onAck id).connState = .closed ∧ (c.onAck id).closeCause = some .normal
        else (c.onAck id).connState = .idle) := by
  rcases c.onAck_cases id with ⟨f, hf, hid, e⟩ | ⟨-, e⟩ <;> rw [e]
  case inr => exact .inl ⟨rfl, rfl, rfl⟩
  have hawaiting : c.connState = .awaitingAck := h.awaiting_iff_outstanding.mpr (by simp [hf])
  have hmatch : id = c.nextSendId := by
    obtain ⟨isEnd, payload, -, rfl, -⟩ := h.outstanding_form f hf
    cases isEnd <;> exact hid
  refine .inr ⟨hawaiting, hmatch, by simp, ?_⟩
  rw [checkDone_endAcked]
  split
  · rename_i hdone
    rw [checkDone_of_done hdone.1 hdone.2 (by simp)]
    exact ⟨rfl, rfl⟩
  · rename_i hundone
    rw [checkDone, if_neg fun hdone => hundone ⟨hdone.1, hdone.2.1⟩, retire_connState]

/-- A data frame without END changes nothing that the table looks at (R139, R140, R143). -/
theorem Conn.onDataPlain_staysPut (cfg : Config) (id : Byte) (payload : Bytes) (c : Conn) :
    c.StaysPut (c.onDataPlain cfg id payload) := by
  unfold onDataPlain
  rcases c.onData_cases cfg id [.payload payload] fun a => a with ⟨-, e⟩ | ⟨-, -, e⟩ | ⟨-, -, e⟩ <;> rw [e] <;>
    exact ⟨rfl, rfl, rfl⟩

/-- A data frame with END may complete the END exchange: once this side's END is acknowledged no frame is outstanding
(R131, R141, R144). -/
theorem Conn.Inv.onDataEnd_row (h : c.Inv cfg) (hopen : c.connState ≠ .closed) (id : Byte) (payload : Bytes) :
    c.StaysPut (c.onDataEnd cfg id payload) ∨
    c.connState = .idle ∧ c.endAcked = true ∧ (c.onDataEnd cfg id payload).ClosedNormally := by
  unfold Conn.onDataEnd
  rcases c.onData_cases cfg id (endItems payload) fun a => { a with peerEndReceived := true }.checkDone with
    ⟨-, e⟩ | ⟨-, -, e⟩ | ⟨-, -, e⟩ <;> rw [e]
  · exact .inl ⟨rfl, rfl, rfl⟩
  · exact .inl ⟨rfl, rfl, rfl⟩
  · rcases Conn.checkDone_cases { c.accept cfg.sync id (endItems payload) with peerEndReceived := true } with
      ⟨hacked, -, -, e'⟩ | ⟨-, e'⟩ <;> rw [e']
    · have hidle : c.connState = .idle := by
        have hnotAwaiting := h.acked_not_awaiting hacked
        cases hstate : c.connState <;> simp_all
      exact .inr ⟨hidle, hacked, rfl, rfl, hacked, rfl⟩
    · exact .inl ⟨rfl, rfl, rfl⟩

end

/-! ### Frames one after another -/

/-- The rows of the transition table by which the received frames `frames` take `c` to `d`. -/
inductive Conn.FrameRow (frames : List Instr) (c d : Conn) : Prop where
  /-- no row -/
  | stays (h : c.StaysPut d)
  /-- the matching ACK (R137) -/
  | acked (awaiting : c.connState = .awaitingAck) (ack : ∃ flags p, .fAck c.nextSendId flags p ∈ frames)
      (h : d.connState = .idle ∨ d.ClosedNormally)
  /-- an RST (R136) -/
  | reset (rst : ∃ id flags p, .fRst id flags p ∈ frames) (state : d.connState = .closed)
      (cause : d.closeCause = some .peerReset)
  /-- the peer's END when this side's is acknowledged (R141, R144) -/
  | ended (idle : c.connState = .idle) (acked : c.endAcked = true)
      (dataEnd : ∃ id flags p, .fDataEnd id flags p ∈ frames) (h : d.ClosedNormally)

namespace Conn.FrameRow
variable {frames frames' : List Instr} {c d e : Conn}

theorem refl (frames : List Instr) (c : Conn) : FrameRow frames c c := .stays ⟨rfl, rfl, rfl⟩

theorem mono (hsub : frames ⊆ frames') (h : FrameRow frames c d) : FrameRow frames' c d := by
  cases h with
  | stays h => exact .stays h
  | acked awaiting ack h => exact .acked awaiting (ack.imp fun _ => .imp fun _ hmem => hsub hmem) h
  | reset rst state cause =>
    exact .reset (rst.imp fun _ => .imp fun _ => .imp fun _ hmem => hsub hmem) state cause
  | ended idle acked dataEnd h =>
    exact .ended idle acked (dataEnd.imp fun _ => .imp fun _ => .imp fun _ hmem => hsub hmem) h

/-- Frames that leave the connection open, and frames after them: at most one ACK matches, and what closes comes last. -/
theorem trans (h : FrameRow frames c d) (hopen : d.connState ≠ .closed) (h' : FrameRow frames d e) :
    FrameRow frames c e := by
  cases h with
  | stays h =>
    obtain ⟨hstate, hid, hacked⟩ := h
    cases h' with
    | stays h' => exact .stays ⟨h'.1.trans hstate, h'.2.1.trans hid, h'.2.2.trans hacked⟩
    | acked awaiting ack h' => exact .acked (hstate ▸ awaiting) (hid ▸ ack) h'
    | reset rst state cause => exact .reset rst state cause
    | ended idle acked dataEnd h' => exact .ended (hstate ▸ idle) (hacked ▸ acked) dataEnd h'
  | acked awaiting ack h =>
    have hidle : d.connState = .idle := h.resolve_right fun hdone => hopen hdone.1
    cases h' with
    | stays h' => exact .acked awaiting ack (.inl (h'.1.trans hidle))
    | acked awaiting' => simp [hidle] at awaiting'
    | reset rst state cause => exact .reset rst state cause
    | ended _ _ _ h' => exact .acked awaiting ack (.inr h')
  | reset _ state => exact absurd state hopen
  | ended _ _ _ h => exact absurd h.1 hopen

end Conn.FrameRow

/-- A received frame from a good state is a row of the table or none. -/
theorem frameRow_of_exec {j : Instr} {s t : State} (hj : isReceivedFrame j = true) (hs : s.Inv) (h : exec j s = .next t) :
    s.st.FrameRow [j] t.st := by
  obtain ⟨-, hconn⟩ := hs
  have handled {f : Conn → Conn} (hf : s.st.connState ≠ .closed → s.st.FrameRow [j] (f s.st)) :
      s.st.FrameRow [j] (s.st.whenOpen f) := Conn.whenOpen_of (P := s.st.FrameRow [j]) (.refl _ _) hf
  rw [st_of_exec h]
  cases j with
  | fRst id flags p => exact handled fun _ => .reset ⟨id, flags, p, List.mem_singleton_self _⟩ rfl rfl
  | fAck id flags p =>
    refine handled fun _ => ?_
    rcases hconn.onAck_row id with hstays | ⟨hawaiting, rfl, hpeer, hleft⟩
    · exact .stays hstays
    · refine .acked hawaiting ⟨flags, p, List.mem_singleton_self _⟩ ?_
      split at hleft
      · rename_i hdone
        exact .inr ⟨hleft.1, hleft.2, hdone.1, hpeer.trans hdone.2⟩
      · exact .inl hleft
  | fDataEnd id flags p =>
    refine handled fun hopen => ?_
    rcases hconn.onDataEnd_row hopen id p with hstays | ⟨hidle, hacked, hdone⟩
    · exact .stays hstays
    · exact .ended hidle hacked ⟨id, flags, p, List.mem_singleton_self _⟩ hdone
  | fData id flags p => exact handled fun _ => .stays (Conn.onDataPlain_staysPut ..)
  | _ => cases hj

end Sys2Proof.Machine
end
section
/-! `RX_BYTES` as received frames (R120, R121, R135): the extraction loop runs frames one after another, and beside them
touches only the bytes buffered and the trace, which no frame reads. -/

namespace Sys2Proof.Machine

/-- What of the Connection the loop itself writes: the bytes buffered and the trace. -/
def Conn.regroup (bookkeeping : Bytes × List Tag) (c : Conn) : Conn := (c.rebuffer bookkeeping.1).retrace bookkeeping.2

/-- What reads neither the bytes buffered nor the trace does not read the two together. -/
theorem Blind.regroup {f : Conn → Conn} (hbuffer : Blind Conn.rebuffer f) (htrace : Blind Conn.retrace f) :
    Blind Conn.regroup f := by
  intro x c
  obtain ⟨tags, htags⟩ := htrace x.2 (c.rebuffer x.1)
  obtain ⟨b, hb⟩ := hbuffer x.1 c
  exact ⟨(b, tags), htags.trans (congrArg (Conn.retrace tags) hb)⟩

/-! ### Received frames, one after another -/

/-- `frames` are well-formed received frames (R65, R68). -/
def AreFrames (frames : List Instr) : Prop := ∀ j ∈ frames, isReceivedFrame j = true ∧ j.wf = true

theorem AreFrames.append {frames frames' : List Instr} (h : AreFrames frames) (h' : AreFrames frames') :
    AreFrames (frames ++ frames') := List.forall_mem_append.mpr ⟨h, h'⟩

/-- A decoded frame is a well-formed received frame of its class (R65, R68). -/
theorem areFrames_classify (id flags : Byte) {payload : Bytes} (hlen : payload.length ≤ maxPayload) :
    AreFrames [classify id flags payload] := by
  refine List.forall_mem_singleton.mpr ?_
  unfold classify
  cases hclass : frameClass flags <;> simp [isReceivedFrame, Instr.wf, hlen, hclass]

/-- One operation more after others. -/
theorem execAll_concat {frames : List Instr} {j : Instr} {s t u : State} (h : execAll frames s = .next t)
    (hlast : exec j t = .next u) : execAll (frames ++ [j]) s = .next u := by
  induction frames generalizing s with
  | nil =>
    obtain rfl : s = t := Host.Outcome.next.inj h
    exact execAll_cons [] hlast
  | cons i frames ih =>
    obtain ⟨s', hfirst, -⟩ := exec_answers_keeping_cfg_slots i s
    rw [execAll_cons frames hfirst] at h
    rw [List.cons_append, execAll_cons _ hfirst]
    exact ih h

/-- Received frames leave a closed Connection as it is (R126). -/
theorem execAll_frames_closed {frames : List Instr} (hframes : AreFrames frames) {s t : State} (hs : s.Inv)
    (hclosed : s.st.connState = .closed) (h : execAll frames s = .next t) : t.st = s.st := by
  induction frames generalizing s with
  | nil =>
    obtain rfl : s = t := Host.Outcome.next.inj h
    rfl
  | cons j frames ih =>
    obtain ⟨⟨hj, hwf⟩, hrest⟩ := List.forall_mem_cons.mp hframes
    obtain ⟨s', hfirst, -⟩ := exec_answers_keeping_cfg_slots j s
    rw [execAll_cons frames hfirst] at h
    have hkept : s'.st = s.st := by
      rw [st_of_exec hfirst]
      obtain ⟨-, hdisarmed, -⟩ := hs.2.closed_form hclosed
      refine (Conn.after_of_closed hclosed s.cfg hdisarmed ?_).resolve_right ?_ <;> rintro rfl <;> cases hj
    rw [ih hrest (exec_inv hwf hs hfirst) (hkept ▸ hclosed) h, hkept]

/-- Received frames run one after another from a good state are a row of the table or none. -/
theorem frameRow_of_execAll {frames : List Instr} (hframes : AreFrames frames) {s t : State} (hs : s.Inv)
    (h : execAll frames s = .next t) : s.st.FrameRow frames t.st := by
  induction frames generalizing s with
  | nil =>
    obtain rfl : s = t := Host.Outcome.next.inj h
    exact .refl _ _
  | cons j frames ih =>
    obtain ⟨⟨hj, hwf⟩, hrest⟩ := List.forall_mem_cons.mp hframes
    obtain ⟨s', hfirst, -⟩ := exec_answers_keeping_cfg_slots j s
    rw [execAll_cons frames hfirst] at h
    have hs' : s'.Inv := exec_inv hwf hs hfirst
    have hrow : s.st.FrameRow (j :: frames) s'.st := (frameRow_of_exec hj hs hfirst).mono (by simp)
    by_cases hclosed : s'.st.connState = .closed
    · rwa [execAll_frames_closed hrest hs' hclosed h]
    · exact hrow.trans hclosed ((ih hrest hs' h).mono (List.subset_cons_self j frames))

/-! ### The loop -/

/-- What the extraction loop keeps since `s`: the Connection is, but for the loop's own writes, the one that some received
frames leave, and once closed it has no bytes left to take a frame from. -/
def RunsFrames (s : State) (d : Conn) : Prop :=
  (∃ frames u x, AreFrames frames ∧ execAll frames s = .next u ∧ u.cfg = s.cfg ∧ d = u.st.regroup x) ∧
    (d.connState = .closed → d.receiveBuffer = [])

namespace RunsFrames
variable {s : State} {d : Conn}

theorem start (s : State) (b : Bytes) (hopen : s.st.connState ≠ .closed) : RunsFrames s (s.st.rebuffer b) :=
  ⟨⟨[], s, (b, s.st.trace), List.forall_mem_nil _, rfl, rfl, rfl⟩, fun hclosed => absurd hclosed hopen⟩

theorem frame {id flags : Byte} {payload : Bytes} {n : Nat} (h : RunsFrames s d)
    (hd : decodeFrame s.cfg.sync d.receiveBuffer = .frame id flags payload n) :
    RunsFrames s ((d.rebuffer (d.receiveBuffer.drop n)).dispatch s.cfg id flags payload) := by
  obtain ⟨⟨frames, u, x, hframes, hrun, hcfg, e⟩, hclosed⟩ := h
  have hopen := Conn.open_of_candidate hclosed (sync := s.cfg.sync) (by simp [hd])
  obtain ⟨-, -, -, hlen⟩ := decodeFrame_consumed hd
  subst e
  have hexec := exec_classify id flags payload u
  rw [Conn.whenOpen_open (by exact hopen), hcfg] at hexec
  have hblind : Blind Conn.regroup (Conn.dispatch s.cfg id flags payload) :=
    (receiveBuffer_unread.dispatch s.cfg id flags payload).regroup (trace_unread.dispatch s.cfg id flags payload)
  obtain ⟨y, hy⟩ := hblind ((u.st.regroup x).receiveBuffer.drop n, x.2) u.st
  exact ⟨⟨_, _, y, hframes.append (areFrames_classify id flags hlen), execAll_concat hrun hexec, hcfg, hy⟩,
    (Conn.KeepsBuffer.dispatch ..).receiveBuffer_of_closing hopen⟩

theorem error (kind : FramingKind) (h : RunsFrames s d)
    (hd : decodeFrame s.cfg.sync d.receiveBuffer = .framingError kind) :
    RunsFrames s ((d.record kind.tag).rebuffer (resync s.cfg.sync d.receiveBuffer)) := by
  obtain ⟨⟨frames, u, x, hframes, hrun, hcfg, e⟩, hclosed⟩ := h
  have hopen := Conn.open_of_candidate hclosed (sync := s.cfg.sync) (by simp [hd])
  subst e
  exact ⟨⟨frames, u, (_, x.2 ++ [kind.tag]), hframes, hrun, hcfg, rfl⟩, fun hc => absurd hc hopen⟩

end RunsFrames

/-- `RX_BYTES` of any chunk leaves what some received frames leave, but for the bytes buffered and the trace. -/
theorem rxBytes_runs_frames (chunk : Bytes) (s : State) :
    ∃ frames u x, AreFrames frames ∧ execAll frames s = .next u ∧ (s.st.rx s.cfg chunk).2 = u.st.regroup x := by
  have untouched : ∃ frames u x, AreFrames frames ∧ execAll frames s = .next u ∧ s.st = u.st.regroup x :=
    ⟨[], s, (s.st.receiveBuffer, s.st.trace), List.forall_mem_nil _, rfl, rfl⟩
  rcases s.st.rx_cases s.cfg chunk with ⟨-, e⟩ | ⟨-, -, e⟩ | ⟨hopen, -, e⟩ <;> rw [e]
  case inr.inr =>
    obtain ⟨⟨frames, u, x, hframes, hrun, -, h⟩, -⟩ : RunsFrames s (s.st.absorb s.cfg chunk) :=
      Conn.extract_induction (P := RunsFrames s) (fun _ _ _ _ _ h hd => h.frame hd) (fun _ kind h hd => h.error kind hd)
        _ _ (.start s _ hopen)
    exact ⟨frames, u, x, hframes, hrun, h⟩
  all_goals exact untouched

end Sys2Proof.Machine
end

section
/-! The transition table (R165). -/

namespace Sys2Proof.Machine

/-! ### The operations that leave `conn_state` -/

theorem Conn.receive_connState (c : Conn) : c.receive.2.connState = c.connState := by
  rcases c.receive_takes with e | e | ⟨item, rest, -, e⟩ <;> rw [e]

theorem Conn.emitEncoded_connState (sync : BitVec 32) (id flags : Byte) (payload : Bytes) (c : Conn) :
    (c.emitEncoded sync id flags payload).connState = c.connState := by
  rcases c.emitEncoded_cases sync id flags payload with ⟨-, -, e⟩ | ⟨-, e⟩ <;> rw [e]
  rfl

/-! ### The expiry -/

/-- An expiry changes `conn_state` only when the ceiling is reached: the counter does not wrap (R7, R15, R162). -/
theorem Conn.Inv.timerExpire_row {cfg : Config} {c : Conn} (h : c.Inv cfg) (hcfg : cfg.wf = true) :
    (c.timerExpire cfg).connState = c.connState ∨
    c.connState = .awaitingAck ∧ c.retryCount = cfg.retryCeiling ∧ (c.timerExpire cfg).connState = .closed ∧
      (c.timerExpire cfg).closeCause = some .retriesExhausted := by
  rcases c.timerExpire_cases cfg with ⟨-, e⟩ | ⟨harmed, hlt, e⟩ | ⟨-, -, e⟩ <;> rw [e]
  case inr.inl =>
    have hceiling : cfg.retryCeiling.toNat < 255 := by
      simp only [Config.wf, Bool.and_eq_true, decide_eq_true_eq] at hcfg
      exact hcfg.1.1
    have hbound := BitVec.le_def.mp h.retry_bound
    rw [BitVec.lt_def, toNat_count_up (by omega)] at hlt
    exact .inr ⟨h.awaiting_iff_armed.mpr harmed, BitVec.eq_of_toNat_eq (by omega), rfl, rfl⟩
  all_goals exact .inl rfl

/-- In `Closed` no operation but `RESET` changes `conn_state` (R167). -/
theorem open_of_connState_changed {i : Instr} {s t : State} (hs : s.Inv) (hreset : i ≠ .reset) (h : exec i s = .next t)
    (hchanged : t.st.connState ≠ s.st.connState) : s.st.connState ≠ .closed := by
  intro hclosed
  obtain ⟨-, hdisarmed, -⟩ := hs.2.closed_form hclosed
  rcases closedIsTerminal s t i hreset hclosed hdisarmed h with e | ⟨-, e | ⟨item, rest, -, e⟩⟩ <;>
    exact hchanged (by rw [e])

/-- Settles O55: each operation is a row of the table or leaves `conn_state`, and `RX_BYTES` is the rows of its frames. -/
theorem stateChangesAreTheTransitionTable : Obligations.StateChangesAreTheTransitionTable := by
  intro s t i hs h
  have hconn : s.st.Inv s.cfg := hs.2
  refine ⟨fun hrx hchanged => ?rows, ?received⟩
  case rows =>
    have impossible (e : (s.st.after s.cfg i).connState = s.st.connState) : False :=
      hchanged ((congrArg Conn.connState (st_of_exec h)).trans e)
    have hopen (hreset : i ≠ .reset) := open_of_connState_changed hs hreset h hchanged
    cases i with
    | send p =>
      rcases exec_sendOp_cases (isEnd := false) h with e | ⟨hidle, haccepted, e⟩
      · exact absurd (congrArg Conn.connState e) hchanged
      · exact .inl ⟨hidle, by rw [e]; rfl, haccepted, p, .inl rfl⟩
    | sendEnd p =>
      rcases exec_sendOp_cases (isEnd := true) h with e | ⟨hidle, haccepted, e⟩
      · exact absurd (congrArg Conn.connState e) hchanged
      · exact .inl ⟨hidle, by rw [e]; rfl, haccepted, p, .inr rfl⟩
    | fDataEnd id flags p =>
      cases (exec_fDataEnd_open (hopen (by simp))).symm.trans h
      rcases hconn.onDataEnd_row (hopen (by simp)) id p with hstays | ⟨hidle, hacked, hdone⟩
      · exact absurd hstays.1 hchanged
      · exact .inr (.inl ⟨hidle, hacked, hdone.1, hdone.2.1, id, flags, p, rfl⟩)
    | fRst id flags p =>
      cases (exec_fRst_open (hopen (by simp))).symm.trans h
      exact .inr (.inr (.inl ⟨hopen (by simp), rfl, rfl, id, flags, p, rfl⟩))
    | chClose =>
      cases ((channelClosureClosesAndKeepsTheQueue s).1 (hopen (by simp))).symm.trans h
      exact .inr (.inr (.inr (.inl ⟨hopen (by simp), rfl, rfl, rfl⟩)))
    | fAck id flags p =>
      cases (exec_fAck_open (hopen (by simp))).symm.trans h
      rcases hconn.onAck_row id with hstays | ⟨hawaiting, rfl, -, hleft⟩
      · exact absurd hstays.1 hchanged
      · exact .inr (.inr (.inr (.inr (.inl ⟨hawaiting, ⟨flags, p, rfl⟩, hleft⟩))))
    | timerExpire =>
      rcases hconn.timerExpire_row hs.1 with hkept | ⟨hawaiting, hceiling, hclosed, hcause⟩
      · exact (impossible hkept).elim
      · rw [st_of_exec h]
        exact .inr (.inr (.inr (.inr (.inr (.inl ⟨hawaiting, rfl, hceiling, hclosed, hcause⟩)))))
    | reset =>
      rw [st_of_exec h]
      exact .inr (.inr (.inr (.inr (.inr (.inr ⟨rfl, rfl⟩)))))
    | rxBytes chunk => exact absurd rfl (hrx chunk)
    | fData id flags p =>
      cases (exec_fData_open (hopen (by simp))).symm.trans h
      exact absurd (Conn.onDataPlain_staysPut s.cfg id p s.st).1 hchanged
    | receive => exact (impossible (Conn.receive_connState _)).elim
    | txData | txDataEnd | txAck | txRst => exact (impossible (Conn.emitEncoded_connState ..)).elim
    | cksum | encodeFrame | decodeFrame | rdstat => exact (impossible rfl).elim
    | reserved0 | reservedB | reservedC | reservedD | reservedE => exact (impossible rfl).elim
  case received =>
    rintro chunk rfl
    obtain ⟨frames, u, x, hframes, hrun, e⟩ := rxBytes_runs_frames chunk s
    have ht : t.st = u.st.regroup x := (st_of_exec h).trans e
    rw [ht]
    refine ⟨frames, u, hframes, hrun, rfl, ?_⟩
    intro hchanged acked
    cases frameRow_of_execAll hframes hs hrun with
    | stays hstays => exact absurd hstays.1 hchanged
    | acked hawaiting hack hleft =>
      rcases hleft with hidle | ⟨hclosed, hcause, hacked, hend⟩
      · exact .inl ⟨hidle, hawaiting, hack⟩
      · exact .inr (.inr ⟨hclosed, hcause, hacked, hend, .inl ⟨hawaiting, hack⟩⟩)
    | reset hrst hclosed hcause =>
      exact .inr (.inl ⟨fun hwas => hchanged (hclosed.trans hwas.symm), hclosed, hcause, hrst⟩)
    | ended hidle hacked hdataEnd hdone =>
      obtain ⟨hclosed, hcause, hended, hend⟩ := hdone
      exact .inr (.inr ⟨hclosed, hcause, hended, hend, .inr ⟨hidle, hacked, hdataEnd⟩⟩)

end Sys2Proof.Machine
end

section
/-! A slot with several events presented: the arbiter's choice and what it leaves (R50, R192). -/

namespace Sys2Proof.Machine

/-- The ranks by the number of the event's code (R74, R192). -/
theorem EventWord.rank_eq (e : EventWord) :
    rank e = match e.op.toNat with | 15 => 0 | 8 => 1 | 9 => 2 | 10 => 3 | _ => 4 := by
  unfold rank
  generalize e.op = op
  revert op
  decide

/-- The event taken is the first presented of the least rank, and the others keep their order (R192). -/
theorem takeFirst_split {slot rest : List EventWord} {e : EventWord} (h : takeFirst slot = some (e, rest)) :
    ∃ before after, slot = before ++ e :: after ∧ rest = before ++ after ∧
      (∀ x ∈ before, EventWord.rank e < EventWord.rank x) ∧ ∀ x ∈ after, EventWord.rank e ≤ EventWord.rank x := by
  induction slot generalizing e rest with
  | nil => cases h
  | cons a as ih =>
    cases htail : takeFirst as with
    | none =>
      obtain rfl := (takeFirst_eq_none as).mp htail
      cases h
      exact ⟨[], [], rfl, rfl, List.forall_mem_nil _, List.forall_mem_nil _⟩
    | some taken =>
      obtain ⟨m, others⟩ := taken
      obtain ⟨before, after, rfl, rfl, hbefore, hafter⟩ := ih htail
      simp only [takeFirst, htail] at h
      split at h
      case isTrue hle =>
        cases h
        have hleast : ∀ x ∈ before ++ m :: after, EventWord.rank m ≤ EventWord.rank x :=
          List.forall_mem_append.mpr ⟨fun x hx => (hbefore x hx).le, List.forall_mem_cons.mpr ⟨le_rfl, hafter⟩⟩
        exact ⟨[], _, rfl, rfl, List.forall_mem_nil _, fun x hx => hle.trans (hleast x hx)⟩
      case isFalse hlt =>
        cases h
        exact ⟨a :: before, after, rfl, rfl, List.forall_mem_cons.mpr ⟨not_le.mp hlt, hbefore⟩, hafter⟩

/-- The next event is the arbiter's choice from the first slot, which goes once it is empty (R50, R192). -/
theorem nextEvent_of_takeFirst {slot rest : List EventWord} {e : EventWord} (h : takeFirst slot = some (e, rest))
    (more : List (List EventWord)) :
    nextEvent (slot :: more) = some (e, if rest = [] then more else rest :: more) := by
  simp only [nextEvent, h]

/-- Settles O48: the arbiter gives an event of a non-empty slot, and the step runs it on the schedule that is left. -/
theorem slotIsServedInTheArbitersOrder : Obligations.SlotIsServedInTheArbitersOrder := by
  intro s slot more hslots hne rank
  have hrank : rank = EventWord.rank := funext fun e => (EventWord.rank_eq e).symm
  obtain ⟨⟨e, rest⟩, htaken⟩ := Option.ne_none_iff_exists'.mp (mt (takeFirst_eq_none slot).mp hne)
  obtain ⟨before, after, hsplit, rfl, hbefore, hafter⟩ := takeFirst_split htaken
  rw [hrank]
  exact ⟨before, e, after, hsplit, hbefore, hafter, step_of_nextEvent (hslots ▸ nextEvent_of_takeFirst htaken more)⟩

end Sys2Proof.Machine
end
